-- ==== Sys2Proof/Word.lean ====
section
/-! DEFINITION. The word types of the W25 and the type of sparse tables. -/
namespace Sys2Proof

/-- A 32-bit word: a G register, an instruction word, a configuration register. -/
abbrev Word := BitVec 32

/-- A byte of any of the address spaces (Table 06.2). -/
abbrev Byte := BitVec 8

/-- A 64-bit count (R202). -/
abbrev DWord := BitVec 64

/-- A vector register of 512 bits (Table 03.1). -/
abbrev Vec := BitVec 512

/-- A table by number in which an unlisted number holds the table's default value: keys rise and no
listed entry equals the default (the readers and writers are in Machine/Sparse.lean). -/
abbrev Sparse (α : Type) := List (Nat × α)

end Sys2Proof
end

