-- ==== Sys2Proof/Arbin.lean ====
section
/-! DEFINITION. The Arbin core's instructions as decoded from an instruction word (chapters 03, 05, 07 to 11, 13). A row of
the table that is an instruction carries the same fields; DIE_CYCLE_ISSUE decodes them from
scratchpad. And the operands of the commands that carry several values. -/
namespace Sys2Proof

/-- The register ALU functions of opcode 0x00, FN 0 to 18 (Table 03.9). -/
inductive Alu where
  | add | adc | sub | sbc | and | or | xor | andn | shl | shr | sar | ror
  | mul | mulhs | mulhu | min | max | minu | maxu
  deriving DecidableEq, Repr

/-- The lane-wise functions of opcode 0x20, FN 0 to 14 (Table 03.9). -/
inductive VFn where
  | add | sub | mul | fma | min | max | and | or | xor | shl | shr | sel | abs | adds | subs
  deriving DecidableEq, Repr

/-- The reductions of opcode 0x22, SUB 3 to 5 (Table 03.9). -/
inductive VRed where
  | sum | max | min
  deriving DecidableEq, Repr

/-- A decoded instruction. Field names follow the encoding tables; every field keeps its encoded width, so that a
reserved value reaches the encoding check of R57. -/
inductive Op where
  -- chapter 03
  | alu (f : Alu) (gd ga gb : BitVec 5) (s : Bool)
  | clz (gd ga : BitVec 5)
  | bperm (gd ga gb : BitVec 5)
  | cmp (ga gb : BitVec 5)
  | aluImm (f : Alu) (gd ga : BitVec 5) (s : Bool) (imm : BitVec 11)
  | cmpi (ga : BitVec 5) (imm : BitVec 11)
  | movi (gd : BitVec 5) (imm : BitVec 16)
  | movhi (gd : BitVec 5) (imm : BitVec 16)
  | shiftImm (kind : BitVec 2) (gd ga : BitVec 5) (amount : BitVec 5) (s : Bool)
  | bfi (gd ga pos : BitVec 5) (width : BitVec 6)
  | bfx (gd ga pos : BitVec 5) (width : BitVec 6) (sgn : Bool)
  | macd (gd : BitVec 5) (z p : Bool) (size : BitVec 2)
  | vmacd (vd : BitVec 5) (z p : Bool) (ty : BitVec 2)
  | ldr (rd : BitVec 5) (c : BitVec 4) (ga : BitVec 5) (size : BitVec 3) (imm : BitVec 5)
  | str (rs : BitVec 5) (c : BitVec 4) (ga : BitVec 5) (size : BitVec 3) (imm : BitVec 5)
  | lda (rd : BitVec 5) (ag : BitVec 2) (p : Bool) (size : BitVec 3)
  | sta (rs : BitVec 5) (ag : BitVec 2) (p : Bool) (size : BitVec 3)
  | agset (ag : BitVec 2) (ga : BitVec 5) (field : BitVec 3)
  | agget (ag : BitVec 2) (gd : BitVec 5) (field : BitVec 3)
  | agadd (ag : BitVec 2) (imm : BitVec 17)
  | agbind (ag : BitVec 2) (c : BitVec 4)
  | b (off : BitVec 22)
  | bl (off : BitVec 22)
  | br (ga : BitVec 5) (link : Bool)
  | rdsr (gd : BitVec 5) (sr : BitVec 4)
  | iflush
  | vop (f : VFn) (vd va vb : BitVec 5) (ty : BitVec 3)
  | vcmp (vd va vb : BitVec 5) (cc : BitVec 3) (s : Bool) (ty : BitVec 3)
  | vbcast (vd ga : BitVec 5) (lane : BitVec 6) (ty : BitVec 3)
  | vext (gd va : BitVec 5) (lane : BitVec 6) (ty : BitVec 3)
  | vins (vd ga : BitVec 5) (lane : BitVec 6) (ty : BitVec 3)
  | vred (f : VRed) (vd va : BitVec 5) (ty : BitVec 3)
  | vcvt (vd va : BitVec 5) (src dst : BitVec 4) (part : BitVec 2) (rm : BitVec 3) (ovf : Bool)
  -- chapter 05
  | cld (cd cb : BitVec 4) (ga : BitVec 5)
  | cst (cs cb : BitVec 4) (ga : BitVec 5)
  | cmov (cd cs : BitVec 4) (clr : Bool)
  | cnarrow (cd cs : BitVec 4) (ga gb : BitVec 5)
  | cinfo (gd : BitVec 5) (cs : BitVec 4) (field : BitVec 3)
  | cstamp (cd cs ca : BitVec 4) (ga : BitVec 5)
  | credeem (cd cs ca : BitVec 4)
  | ctest (cs : BitVec 4) (ga : BitVec 5)
  | crevoke (ca : BitVec 4) (ga : BitVec 5)
  | trap (n : BitVec 8) (cs : BitVec 4)
  | rfe (csys : BitVec 4)
  | ssrd (field : BitVec 4) (gd : BitVec 5) (set : Bool)
  | sswr (field : BitVec 4) (ga : BitVec 5) (set : Bool)
  | scrd (cfield : BitVec 2) (cd : BitVec 4) (set : Bool)
  | scwr (cfield : BitVec 2) (cs : BitVec 4) (set : Bool)
  -- chapter 07
  | tcfg (target : BitVec 4) (fmt : BitVec 4) (shape : BitVec 1) (layout : BitVec 3)
  | tfree (tmask : BitVec 8) (amask : BitVec 4)
  | mstat (gd : BitVec 5) (sel : BitVec 4)
  | aclr (amask : BitVec 4)
  | azero (amask : BitVec 4)
  | tld (tile : BitVec 3) (ag : BitVec 2) (p : Bool)
  | tst (tile : BitVec 3) (ag : BitVec 2) (p : Bool)
  | mma (acc : BitVec 2) (ta tb : BitVec 3) (z : Bool) (sp : BitVec 2) (tm : BitVec 3)
  | aget (vd : BitVec 5) (acc pair : BitVec 2)
  | aput (va : BitVec 5) (acc pair : BitVec 2)
  -- chapters 08 and 09
  | vroute (gn gb : BitVec 5) (cc : BitVec 4) (fin p : Bool)
  | vdelta (layer : BitVec 4) (gn : BitVec 5)
  | dlframe (layer : BitVec 4) (gd ga : BitVec 5)
  -- chapter 10
  | ctxsw (ctx disp : BitVec 2)
  | tsend (port : BitVec 3) (va : BitVec 5) (len : BitVec 4) (rel : Bool)
  | tend
  | tdone (cs : BitVec 4) (ga : BitVec 5)
  | stctl (cs : BitVec 4) (op : BitVec 2)
  | tstat (gd : BitVec 5) (sel : BitVec 4)
  -- chapter 11
  | mput (size : Bool) (r : BitVec 5) (idx : BitVec 4)
  | send (cs : BitVec 4) (ga : BitVec 5) (len : BitVec 4) (rel : Bool)
  | recv (cs : BitVec 4) (ga vd gd : BitVec 5)
  | cinc (cs : BitVec 4) (ga gb : BitVec 5) (imm : Bool)
  | cwait (cs : BitVec 4) (ga gb : BitVec 5) (wide : Bool)
  | crd (cs : BitVec 4) (ga gd : BitVec 5) (hi : Bool)
  | chstat (cs : BitVec 4) (ga gd : BitVec 5) (side : Bool)
  -- chapter 13
  | sopen (stream : BitVec 2) (cm cr : BitVec 4) (ga : BitVec 5)
  | snext (stream : BitVec 2) (gd : BitVec 5)
  | sclose (stream : BitVec 2)
  | sresume (stream : BitVec 2)
  | sstat (stream : BitVec 2) (gd : BitVec 5) (sel : BitVec 2)
  deriving DecidableEq, Repr

/-- Whose configuration space a register lies in (R297): a core's, a port's, an engine's; or BAR0, which the host reaches by accesses of a
size in bytes (R333), or BAR2 (R326). -/
inductive CfgTarget where
  | core (c : Nat)
  | port (m : Nat)
  | dma (e : Nat)
  | bar0 (size : Nat)
  | bar2
  deriving DecidableEq, Repr

/-- An understory access (R297): who makes it (a die's steward, or the host through the lead as number 25), the target, the
offset, and the value of a write. -/
structure UReq where
  requester : Nat
  target : CfgTarget
  offset : Nat
  write : Option Word
  deriving DecidableEq, Repr

/-! ## Operands of commands that carry several values -/

/-- A die and the position that its trunk reads from its inputs (R10). -/
structure Position where
  die : Nat
  dx : BitVec 3
  dy : BitVec 3
  deriving DecidableEq, Repr

/-- The die whose stewards probe its cores, and the cores whose read of ALIVE does not return in time (R437). -/
structure Probes where
  die : Nat
  silent : List Nat
  deriving DecidableEq, Repr

/-- How a grove's self-test ended (R419, R422): the positions, 18 · row + position, where memory BIST found a bad cell, and the signatures
that are not as expected. -/
structure TestEnd where
  memory : List Nat
  sigs : List (Nat × DWord)
  deriving DecidableEq, Repr

/-- How the power-up self-test ended (R419, R420, R424): each entry of a grove, the core-field and row signatures apart from those of the
trunks. -/
structure PowerupEnd where
  memory : List (Nat × Nat)
  sigs : List (Nat × Nat × DWord)
  trunk : List (Nat × Nat × DWord)
  deriving DecidableEq, Repr

/-- The size and interleave ways of a decoder's range (R327). -/
structure HdmRange where
  size : Nat
  ways : Nat
  deriving DecidableEq, Repr

/-- An entry of the MSI-X table: vector, message address and data (R326). -/
structure MsixEntry where
  vec : Nat
  addr : DWord
  data : Word
  deriving DecidableEq, Repr

/-- A datagram at an Ethernet port: its destination address, UDP port and bytes (R371). -/
structure Datagram where
  dst : List Byte
  udp : Nat
  bytes : List Byte
  deriving DecidableEq, Repr

end Sys2Proof
end

