-- ==== Sys2Proof/Syntax.lean ====
section
/-! DEFINITION. The commands of the W25: one constructor per row of spec/opcode_table.json. Cores are named by their
logical core word (R20), dies, groves, ports, engines and rings by number. A row that is an Arbin instruction carries
the core, the thread, the condition code and the instruction's fields (Table 03.2). -/
namespace Sys2Proof

/-- One command of the block, taken from the front of the queue of waiting commands. -/
inductive Instr where
  /-- POWER_APPLIED (R465). -/
  | powerApplied
  /-- START_ABANDONED (R506). -/
  | startAbandoned
  /-- INPUT_POWER_REMOVED (R476). -/
  | inputPowerRemoved
  /-- REARM (R507). -/
  | rearm
  /-- TRIP (R412). -/
  | trip (cause die : Nat)
  /-- CONVERTER_FAULT (R506). -/
  | converterFault (die : Nat)
  /-- INPUT_VOLTAGE_OUT_OF_RANGE (R402). -/
  | inputVoltageOutOfRange (mv : Nat)
  /-- CURRENT_LIMIT (R402). -/
  | currentLimit (ma : Nat)
  /-- TRUNK_POWER_UP (R10). -/
  | trunkPowerUp (at_ : Position)
  /-- TRUNK_BIST_DONE (R424). -/
  | trunkBistDone (die : Nat) (pass : Bool)
  /-- LEAD_REPORT_TIMEOUT (R466). -/
  | leadReportTimeout
  /-- STACK_TRAINING_DONE (R301). -/
  | stackTrainingDone (port : Nat) (pass : Bool)
  /-- STACK_ZEROING_DONE (R310). -/
  | stackZeroingDone (port : Nat)
  /-- CXL_LINK_UP (R326). -/
  | cxlLinkUp
  /-- CXL_LINK_DOWN (R476). -/
  | cxlLinkDown
  /-- PERST_ASSERT (R509). -/
  | perstAssert
  /-- PERST_DEASSERT (R509). -/
  | perstDeassert
  /-- GROVE_POWER_STEP (R398). -/
  | grovePowerStep
  /-- THYME_ENTRY (R467). -/
  | thymeEntry
  /-- POWERUP_SELF_TEST (R469). -/
  | powerupSelfTest
  /-- POWERUP_SELF_TEST_DONE (R469). -/
  | powerupSelfTestDone (ended : PowerupEnd)
  /-- DIE_CYCLE_ISSUE (R84). -/
  | dieCycleIssue (c : Nat)
  /-- SPAD_WRITE_BACK (R126). -/
  | spadWriteBack (c : Nat)
  /-- ADD (R60). -/
  | add (c : Nat) (t : Fin 4) (k : BitVec 4) (gd ga gb : BitVec 5) (sf : Bool)
  /-- ADC (R60). -/
  | adc (c : Nat) (t : Fin 4) (k : BitVec 4) (gd ga gb : BitVec 5) (sf : Bool)
  /-- SUB (R60). -/
  | sub (c : Nat) (t : Fin 4) (k : BitVec 4) (gd ga gb : BitVec 5) (sf : Bool)
  /-- SBC (R60). -/
  | sbc (c : Nat) (t : Fin 4) (k : BitVec 4) (gd ga gb : BitVec 5) (sf : Bool)
  /-- AND (R60). -/
  | and (c : Nat) (t : Fin 4) (k : BitVec 4) (gd ga gb : BitVec 5) (sf : Bool)
  /-- OR (R60). -/
  | or (c : Nat) (t : Fin 4) (k : BitVec 4) (gd ga gb : BitVec 5) (sf : Bool)
  /-- XOR (R60). -/
  | xor (c : Nat) (t : Fin 4) (k : BitVec 4) (gd ga gb : BitVec 5) (sf : Bool)
  /-- ANDN (R60). -/
  | andn (c : Nat) (t : Fin 4) (k : BitVec 4) (gd ga gb : BitVec 5) (sf : Bool)
  /-- SHL (R68). -/
  | shl (c : Nat) (t : Fin 4) (k : BitVec 4) (gd ga gb : BitVec 5) (sf : Bool)
  /-- SHR (R68). -/
  | shr (c : Nat) (t : Fin 4) (k : BitVec 4) (gd ga gb : BitVec 5) (sf : Bool)
  /-- SAR (R68). -/
  | sar (c : Nat) (t : Fin 4) (k : BitVec 4) (gd ga gb : BitVec 5) (sf : Bool)
  /-- ROR (R68). -/
  | ror (c : Nat) (t : Fin 4) (k : BitVec 4) (gd ga gb : BitVec 5) (sf : Bool)
  /-- MUL (R68). -/
  | mul (c : Nat) (t : Fin 4) (k : BitVec 4) (gd ga gb : BitVec 5) (sf : Bool)
  /-- MULHS (R68). -/
  | mulhs (c : Nat) (t : Fin 4) (k : BitVec 4) (gd ga gb : BitVec 5) (sf : Bool)
  /-- MULHU (R68). -/
  | mulhu (c : Nat) (t : Fin 4) (k : BitVec 4) (gd ga gb : BitVec 5) (sf : Bool)
  /-- MIN (R68). -/
  | min (c : Nat) (t : Fin 4) (k : BitVec 4) (gd ga gb : BitVec 5) (sf : Bool)
  /-- MAX (R68). -/
  | max (c : Nat) (t : Fin 4) (k : BitVec 4) (gd ga gb : BitVec 5) (sf : Bool)
  /-- MINU (R68). -/
  | minu (c : Nat) (t : Fin 4) (k : BitVec 4) (gd ga gb : BitVec 5) (sf : Bool)
  /-- MAXU (R68). -/
  | maxu (c : Nat) (t : Fin 4) (k : BitVec 4) (gd ga gb : BitVec 5) (sf : Bool)
  /-- CLZ (R70). -/
  | clz (c : Nat) (t : Fin 4) (k : BitVec 4) (gd ga : BitVec 5)
  /-- BPERM (R70). -/
  | bperm (c : Nat) (t : Fin 4) (k : BitVec 4) (gd ga gb : BitVec 5)
  /-- CMP (R60). -/
  | cmp (c : Nat) (t : Fin 4) (k : BitVec 4) (ga gb : BitVec 5)
  /-- ADDI (R68). -/
  | addi (c : Nat) (t : Fin 4) (k : BitVec 4) (gd ga : BitVec 5) (sf : Bool) (imm : BitVec 11)
  /-- ANDI (R68). -/
  | andi (c : Nat) (t : Fin 4) (k : BitVec 4) (gd ga : BitVec 5) (sf : Bool) (imm : BitVec 11)
  /-- ORI (R68). -/
  | ori (c : Nat) (t : Fin 4) (k : BitVec 4) (gd ga : BitVec 5) (sf : Bool) (imm : BitVec 11)
  /-- XORI (R68). -/
  | xori (c : Nat) (t : Fin 4) (k : BitVec 4) (gd ga : BitVec 5) (sf : Bool) (imm : BitVec 11)
  /-- CMPI (R60). -/
  | cmpi (c : Nat) (t : Fin 4) (k : BitVec 4) (ga : BitVec 5) (imm : BitVec 11)
  /-- MOVI (R80). -/
  | movi (c : Nat) (t : Fin 4) (k : BitVec 4) (gd : BitVec 5) (imm : BitVec 16)
  /-- MOVHI (R80). -/
  | movhi (c : Nat) (t : Fin 4) (k : BitVec 4) (gd : BitVec 5) (imm : BitVec 16)
  /-- SHLI (R68). -/
  | shli (c : Nat) (t : Fin 4) (k : BitVec 4) (gd ga amount : BitVec 5) (sf : Bool)
  /-- SHRI (R68). -/
  | shri (c : Nat) (t : Fin 4) (k : BitVec 4) (gd ga amount : BitVec 5) (sf : Bool)
  /-- SARI (R68). -/
  | sari (c : Nat) (t : Fin 4) (k : BitVec 4) (gd ga amount : BitVec 5) (sf : Bool)
  /-- RORI (R68). -/
  | rori (c : Nat) (t : Fin 4) (k : BitVec 4) (gd ga amount : BitVec 5) (sf : Bool)
  /-- BFI (R69). -/
  | bfi (c : Nat) (t : Fin 4) (k : BitVec 4) (gd ga pos : BitVec 5) (width : BitVec 6)
  /-- BFX (R69). -/
  | bfx (c : Nat) (t : Fin 4) (k : BitVec 4) (gd ga pos : BitVec 5) (width : BitVec 6) (sgn : Bool)
  /-- MACD (R71). -/
  | macd (c : Nat) (t : Fin 4) (k : BitVec 4) (gd : BitVec 5) (z p : Bool) (size : BitVec 2)
  /-- VMACD (R78). -/
  | vmacd (c : Nat) (t : Fin 4) (k : BitVec 4) (vd : BitVec 5) (z p : Bool) (ty : BitVec 2)
  /-- LDR (R72). -/
  | ldr (c : Nat) (t : Fin 4) (k : BitVec 4) (rd : BitVec 5) (cr : BitVec 4) (ga : BitVec 5) (size : BitVec 3) (imm : BitVec 5)
  /-- STR (R72). -/
  | str (c : Nat) (t : Fin 4) (k : BitVec 4) (rs : BitVec 5) (cr : BitVec 4) (ga : BitVec 5) (size : BitVec 3) (imm : BitVec 5)
  /-- LDA (R72). -/
  | lda (c : Nat) (t : Fin 4) (k : BitVec 4) (rd : BitVec 5) (ag : BitVec 2) (p : Bool) (size : BitVec 3)
  /-- STA (R72). -/
  | sta (c : Nat) (t : Fin 4) (k : BitVec 4) (rs : BitVec 5) (ag : BitVec 2) (p : Bool) (size : BitVec 3)
  /-- AGSET (R65). -/
  | agset (c : Nat) (t : Fin 4) (k : BitVec 4) (ag : BitVec 2) (ga : BitVec 5) (field : BitVec 3)
  /-- AGGET (R65). -/
  | agget (c : Nat) (t : Fin 4) (k : BitVec 4) (ag : BitVec 2) (gd : BitVec 5) (field : BitVec 3)
  /-- AGADD (R66). -/
  | agadd (c : Nat) (t : Fin 4) (k : BitVec 4) (ag : BitVec 2) (imm : BitVec 17)
  /-- AGBIND (R67). -/
  | agbind (c : Nat) (t : Fin 4) (k : BitVec 4) (ag : BitVec 2) (cr : BitVec 4)
  /-- B (R73). -/
  | b (c : Nat) (t : Fin 4) (k : BitVec 4) (off : BitVec 22)
  /-- BL (R73). -/
  | bl (c : Nat) (t : Fin 4) (k : BitVec 4) (off : BitVec 22)
  /-- BR (R73). -/
  | br (c : Nat) (t : Fin 4) (k : BitVec 4) (ga : BitVec 5)
  /-- BLR (R73). -/
  | blr (c : Nat) (t : Fin 4) (k : BitVec 4) (ga : BitVec 5)
  /-- RDSR (R74). -/
  | rdsr (c : Nat) (t : Fin 4) (k : BitVec 4) (gd : BitVec 5) (sr : BitVec 4)
  /-- IFLUSH (R62). -/
  | iflush (c : Nat) (t : Fin 4) (k : BitVec 4)
  /-- VADD (R75). -/
  | vadd (c : Nat) (t : Fin 4) (k : BitVec 4) (vd va vb : BitVec 5) (ty : BitVec 3)
  /-- VSUB (R75). -/
  | vsub (c : Nat) (t : Fin 4) (k : BitVec 4) (vd va vb : BitVec 5) (ty : BitVec 3)
  /-- VMUL (R75). -/
  | vmul (c : Nat) (t : Fin 4) (k : BitVec 4) (vd va vb : BitVec 5) (ty : BitVec 3)
  /-- VFMA (R75). -/
  | vfma (c : Nat) (t : Fin 4) (k : BitVec 4) (vd va vb : BitVec 5) (ty : BitVec 3)
  /-- VMIN (R47). -/
  | vmin (c : Nat) (t : Fin 4) (k : BitVec 4) (vd va vb : BitVec 5) (ty : BitVec 3)
  /-- VMAX (R47). -/
  | vmax (c : Nat) (t : Fin 4) (k : BitVec 4) (vd va vb : BitVec 5) (ty : BitVec 3)
  /-- VAND (R75). -/
  | vand (c : Nat) (t : Fin 4) (k : BitVec 4) (vd va vb : BitVec 5) (ty : BitVec 3)
  /-- VOR (R75). -/
  | vor (c : Nat) (t : Fin 4) (k : BitVec 4) (vd va vb : BitVec 5) (ty : BitVec 3)
  /-- VXOR (R75). -/
  | vxor (c : Nat) (t : Fin 4) (k : BitVec 4) (vd va vb : BitVec 5) (ty : BitVec 3)
  /-- VSHL (R75). -/
  | vshl (c : Nat) (t : Fin 4) (k : BitVec 4) (vd va vb : BitVec 5) (ty : BitVec 3)
  /-- VSHR (R75). -/
  | vshr (c : Nat) (t : Fin 4) (k : BitVec 4) (vd va vb : BitVec 5) (ty : BitVec 3)
  /-- VSEL (R76). -/
  | vsel (c : Nat) (t : Fin 4) (k : BitVec 4) (vd va vb : BitVec 5) (ty : BitVec 3)
  /-- VABS (R75). -/
  | vabs (c : Nat) (t : Fin 4) (k : BitVec 4) (vd va : BitVec 5) (ty : BitVec 3)
  /-- VADDS (R75). -/
  | vadds (c : Nat) (t : Fin 4) (k : BitVec 4) (vd va vb : BitVec 5) (ty : BitVec 3)
  /-- VSUBS (R75). -/
  | vsubs (c : Nat) (t : Fin 4) (k : BitVec 4) (vd va vb : BitVec 5) (ty : BitVec 3)
  /-- VCMP (R76). -/
  | vcmp (c : Nat) (t : Fin 4) (k : BitVec 4) (vd va vb : BitVec 5) (cc : BitVec 3) (sf : Bool) (ty : BitVec 3)
  /-- VBCAST (R80). -/
  | vbcast (c : Nat) (t : Fin 4) (k : BitVec 4) (vd ga : BitVec 5) (ln : BitVec 6) (ty : BitVec 3)
  /-- VEXT (R80). -/
  | vext (c : Nat) (t : Fin 4) (k : BitVec 4) (gd va : BitVec 5) (ln : BitVec 6) (ty : BitVec 3)
  /-- VINS (R80). -/
  | vins (c : Nat) (t : Fin 4) (k : BitVec 4) (vd ga : BitVec 5) (ln : BitVec 6) (ty : BitVec 3)
  /-- VREDSUM (R77). -/
  | vredsum (c : Nat) (t : Fin 4) (k : BitVec 4) (vd va : BitVec 5) (ty : BitVec 3)
  /-- VREDMAX (R77). -/
  | vredmax (c : Nat) (t : Fin 4) (k : BitVec 4) (vd va : BitVec 5) (ty : BitVec 3)
  /-- VREDMIN (R77). -/
  | vredmin (c : Nat) (t : Fin 4) (k : BitVec 4) (vd va : BitVec 5) (ty : BitVec 3)
  /-- VCVT (R48). -/
  | vcvt (c : Nat) (t : Fin 4) (k : BitVec 4) (vd va : BitVec 5) (src dst : BitVec 4) (part : BitVec 2) (rm : BitVec 3) (ovf : Bool)
  /-- SLOT_TABLE_WRITE (R94). -/
  | slotTableWrite (c : Nat) (v : Word)
  /-- SLOT_TABLE_TAKES_EFFECT (R95). -/
  | slotTableTakesEffect (c : Nat)
  /-- THREAD_CTL_WRITE (R95). -/
  | threadCtlWrite (c : Nat) (v : Word)
  /-- CAP_SLOT_TAG_WRITE (R104). -/
  | capSlotTagWrite (c : Nat) (slot : BitVec 4) (v : Word)
  /-- L2_RELEASE (R118). -/
  | l2Release (c : Nat) (v : Word)
  /-- CLD (R101). -/
  | cld (c : Nat) (t : Fin 4) (k cd cb : BitVec 4) (ga : BitVec 5)
  /-- CST (R101). -/
  | cst (c : Nat) (t : Fin 4) (k cs cb : BitVec 4) (ga : BitVec 5)
  /-- CMOV (R101). -/
  | cmov (c : Nat) (t : Fin 4) (k cd cs : BitVec 4)
  /-- CCLR (R101). -/
  | cclr (c : Nat) (t : Fin 4) (k cd cs : BitVec 4)
  /-- CNARROW (R102). -/
  | cnarrow (c : Nat) (t : Fin 4) (k cd cs : BitVec 4) (ga gb : BitVec 5)
  /-- CINFO (R101). -/
  | cinfo (c : Nat) (t : Fin 4) (k : BitVec 4) (gd : BitVec 5) (cs : BitVec 4) (field : BitVec 3)
  /-- CSTAMP (R103). -/
  | cstamp (c : Nat) (t : Fin 4) (k cd cs ca : BitVec 4) (ga : BitVec 5)
  /-- CREDEEM (R103). -/
  | credeem (c : Nat) (t : Fin 4) (k cd cs ca : BitVec 4)
  /-- CTEST (R103). -/
  | ctest (c : Nat) (t : Fin 4) (k cs : BitVec 4) (ga : BitVec 5)
  /-- CREVOKE (R103). -/
  | crevoke (c : Nat) (t : Fin 4) (k ca : BitVec 4) (ga : BitVec 5)
  /-- TRAP (R116). -/
  | trap (c : Nat) (t : Fin 4) (k : BitVec 4) (n : BitVec 8) (cs : BitVec 4)
  /-- ASYNC_CAUSE_ENTRY (R111). -/
  | asyncCauseEntry (c : Nat)
  /-- WAITING_FAULT_ENTRY (R110). -/
  | waitingFaultEntry (c : Nat)
  /-- RFE (R118). -/
  | rfe (c : Nat) (t : Fin 4) (k csys : BitVec 4)
  /-- SSRD (R116). -/
  | ssrd (c : Nat) (t : Fin 4) (k field : BitVec 4) (gd : BitVec 5) (set : Bool)
  /-- SSWR (R116). -/
  | sswr (c : Nat) (t : Fin 4) (k field : BitVec 4) (ga : BitVec 5) (set : Bool)
  /-- SCRD (R116). -/
  | scrd (c : Nat) (t : Fin 4) (k : BitVec 4) (cfield : BitVec 2) (cd : BitVec 4) (set : Bool)
  /-- SCWR (R116). -/
  | scwr (c : Nat) (t : Fin 4) (k : BitVec 4) (cfield : BitVec 2) (cs : BitVec 4) (set : Bool)
  /-- REMOTE_WRITE (R138). -/
  | remoteWrite (c : Nat) (t : Fin 4) (k cs : BitVec 4) (ga : BitVec 5) (len : BitVec 4) (rel : Bool)
  /-- REMOTE_WRITE_LAND (R141). -/
  | remoteWriteLand (c : Nat)
  /-- REMOTE_WRITE_ACK_LAND (R141). -/
  | remoteWriteAckLand (c : Nat)
  /-- CREDIT_MESSAGE_LAND (R142). -/
  | creditMessageLand (c : Nat)
  /-- RELEASE_TAKES_EFFECT (R135). -/
  | releaseTakesEffect (c : Nat) (t : Fin 4)
  /-- OCRED_CTL_WRITE (R143). -/
  | ocredCtlWrite (c : Nat) (e : BitVec 4) (v : Word)
  /-- IWIN_CTL_WRITE (R143). -/
  | iwinCtlWrite (c : Nat) (w : BitVec 4) (v : Word)
  /-- TCFG (R149). -/
  | tcfg (c : Nat) (t : Fin 4) (k target fmt : BitVec 4) (shape : BitVec 1) (layout : BitVec 3)
  /-- TFREE (R150). -/
  | tfree (c : Nat) (t : Fin 4) (k : BitVec 4) (tmask : BitVec 8) (amask : BitVec 4)
  /-- MSTAT (R164). -/
  | mstat (c : Nat) (t : Fin 4) (k : BitVec 4) (gd : BitVec 5) (sel : BitVec 4)
  /-- ACLR (R163). -/
  | aclr (c : Nat) (t : Fin 4) (k amask : BitVec 4)
  /-- AZERO (R163). -/
  | azero (c : Nat) (t : Fin 4) (k amask : BitVec 4)
  /-- TLD (R151). -/
  | tld (c : Nat) (t : Fin 4) (k : BitVec 4) (tile : BitVec 3) (ag : BitVec 2) (p : Bool)
  /-- TST (R151). -/
  | tst (c : Nat) (t : Fin 4) (k : BitVec 4) (tile : BitVec 3) (ag : BitVec 2) (p : Bool)
  /-- MMA (R156). -/
  | mma (c : Nat) (t : Fin 4) (k : BitVec 4) (acc : BitVec 2) (ta tb : BitVec 3) (z : Bool) (tm : BitVec 3)
  /-- MMA_2_4 (R174). -/
  | mma24 (c : Nat) (t : Fin 4) (k : BitVec 4) (acc : BitVec 2) (ta tb : BitVec 3) (z : Bool) (tm : BitVec 3)
  /-- MMA_1_4 (R174). -/
  | mma14 (c : Nat) (t : Fin 4) (k : BitVec 4) (acc : BitVec 2) (ta tb : BitVec 3) (z : Bool) (tm : BitVec 3)
  /-- MMA_BITMAP (R177). -/
  | mmaBitmap (c : Nat) (t : Fin 4) (k : BitVec 4) (acc : BitVec 2) (ta tb : BitVec 3) (z : Bool) (tm : BitVec 3)
  /-- MMA_START (R158). -/
  | mmaStart (c : Nat)
  /-- MMA_FINISH (R159). -/
  | mmaFinish (c : Nat) (flip : BitVec 4096)
  /-- AGET (R162). -/
  | aget (c : Nat) (t : Fin 4) (k : BitVec 4) (vd : BitVec 5) (acc pair : BitVec 2)
  /-- APUT (R162). -/
  | aput (c : Nat) (t : Fin 4) (k : BitVec 4) (va : BitVec 5) (acc pair : BitVec 2)
  /-- CHECK_WORK_START (R168). -/
  | checkWorkStart (c : Nat)
  /-- CHECK_COMPARE (R432). -/
  | checkCompare (c : Nat) (flip : BitVec 4096)
  /-- CHECK_REPEAT_DONE (R433). -/
  | checkRepeatDone (c : Nat) (flipO flipC : BitVec 4096) (cycles : Nat)
  /-- VROUTE (R188). -/
  | vroute (c : Nat) (t : Fin 4) (k : BitVec 4) (gn gb : BitVec 5) (cc : BitVec 4) (fin p : Bool)
  /-- TOKEN_MESSAGE_LAND (R195). -/
  | tokenMessageLand (c : Nat)
  /-- GROVE_IDLE_GATE (R199). -/
  | groveIdleGate (grove : Nat)
  /-- GROVE_WAKE (R200). -/
  | groveWake (grove : Nat)
  /-- GATED_DELIVERY_LAND (R200). -/
  | gatedDeliveryLand (c : Nat)
  /-- SP_CNT_CLR (R202). -/
  | spCntClr (c : Nat) (v : Word)
  /-- RT_CFG_WRITE (R204). -/
  | rtCfgWrite (c : Nat) (v : Word)
  /-- VDELTA (R210). -/
  | vdelta (c : Nat) (t : Fin 4) (k layer : BitVec 4) (gn : BitVec 5)
  /-- DLFRAME (R207). -/
  | dlframe (c : Nat) (t : Fin 4) (k layer : BitVec 4) (gd ga : BitVec 5)
  /-- DL_LAYER_WRITE (R206). -/
  | dlLayerWrite (c : Nat) (l : BitVec 4) (v : Word)
  /-- DL_CNT_CLR (R226). -/
  | dlCntClr (c : Nat) (v : Word)
  /-- CTXSW (R243). -/
  | ctxsw (c : Nat) (t : Fin 4) (k : BitVec 4) (ctx disp : BitVec 2)
  /-- CONTEXT_SWITCH (R244). -/
  | contextSwitch (c : Nat)
  /-- CTXSW_REQ_WRITE (R243). -/
  | ctxswReqWrite (c : Nat) (v : Word)
  /-- TSEND (R236). -/
  | tsend (c : Nat) (t : Fin 4) (k : BitVec 4) (port : BitVec 3) (va : BitVec 5) (len : BitVec 4) (rel : Bool)
  /-- TEND (R234). -/
  | tend (c : Nat) (t : Fin 4) (k : BitVec 4)
  /-- TDONE (R253). -/
  | tdone (c : Nat) (t : Fin 4) (k cs : BitVec 4) (ga : BitVec 5)
  /-- STCTL_START (R253). -/
  | stctlStart (c : Nat) (t : Fin 4) (k cs : BitVec 4)
  /-- STCTL_STOP (R253). -/
  | stctlStop (c : Nat) (t : Fin 4) (k cs : BitVec 4)
  /-- STCTL_ABORT (R253). -/
  | stctlAbort (c : Nat) (t : Fin 4) (k cs : BitVec 4)
  /-- TSTAT (R252). -/
  | tstat (c : Nat) (t : Fin 4) (k : BitVec 4) (gd : BitVec 5) (sel : BitVec 4)
  /-- FIRING (R232). -/
  | firing (c : Nat)
  /-- TOKEN_LAND (R238). -/
  | tokenLand (c : Nat)
  /-- TOKEN_CREDIT_LAND (R240). -/
  | tokenCreditLand (c : Nat)
  /-- EXTENSION_REFILL (R241). -/
  | extensionRefill (c : Nat)
  /-- STALL_TRIP (R247). -/
  | stallTrip (c : Nat)
  /-- STAND_STALL_POST (R354). -/
  | standStallPost (stand : Nat)
  /-- TQ_CTL_WRITE (R238). -/
  | tqCtlWrite (c : Nat) (q : BitVec 2) (v : Word)
  /-- TPORT_CTL_WRITE (R256). -/
  | tportCtlWrite (c : Nat) (p : BitVec 3) (v : Word)
  /-- CONTEXT_STORE_WRITE (R230). -/
  | contextStoreWrite (c : Nat) (i : BitVec 9) (v : Word)
  /-- MPUT (R260). -/
  | mput (c : Nat) (t : Fin 4) (k : BitVec 4) (size : Bool) (r : BitVec 5) (idx : BitVec 4)
  /-- SEND (R261). -/
  | send (c : Nat) (t : Fin 4) (k cs : BitVec 4) (ga : BitVec 5) (len : BitVec 4) (rel : Bool)
  /-- RECV (R265). -/
  | recv (c : Nat) (t : Fin 4) (k cs : BitVec 4) (ga vd gd : BitVec 5)
  /-- CINC (R273). -/
  | cinc (c : Nat) (t : Fin 4) (k cs : BitVec 4) (ga gb : BitVec 5) (imm : Bool)
  /-- CWAIT (R275). -/
  | cwait (c : Nat) (t : Fin 4) (k cs : BitVec 4) (ga gb : BitVec 5) (wide : Bool)
  /-- CRD (R280). -/
  | crd (c : Nat) (t : Fin 4) (k cs : BitVec 4) (ga gd : BitVec 5) (hi : Bool)
  /-- CHSTAT (R280). -/
  | chstat (c : Nat) (t : Fin 4) (k cs : BitVec 4) (ga gd : BitVec 5) (side : Bool)
  /-- SEND_POOL_DEPART (R262). -/
  | sendPoolDepart (c : Nat)
  /-- CHANNEL_MESSAGE_LAND (R267). -/
  | channelMessageLand (c : Nat)
  /-- RESUME_SEND (R268). -/
  | resumeSend (c : Nat)
  /-- ACK_LAND (R261). -/
  | ackLand (c : Nat)
  /-- NACK_LAND (R269). -/
  | nackLand (c : Nat)
  /-- RESUME_LAND (R269). -/
  | resumeLand (c : Nat)
  /-- REJECT_LAND (R270). -/
  | rejectLand (c : Nat)
  /-- QUIESCENT_WAIT_TRIP (R279). -/
  | quiescentWaitTrip (c : Nat)
  /-- K_ADD (R272). -/
  | kAdd (c : Nat) (v : Word)
  /-- CH_OUT_CTL_WRITE (R282). -/
  | chOutCtlWrite (c : Nat) (e : BitVec 5) (v : Word)
  /-- CH_IN_CTL_WRITE (R282). -/
  | chInCtlWrite (c : Nat) (e : BitVec 5) (v : Word)
  /-- ROUTER_OUTPUT_ARBITRATE (R288). -/
  | routerOutputArbitrate (c : Nat)
  /-- SEAM_CROSSING (R291). -/
  | seamCrossing (c side : Nat)
  /-- UNDERSTORY_ACCESS (R297). -/
  | understoryAccess (req : UReq)
  /-- UNDERSTORY_NOTICE (R298). -/
  | understoryNotice (c : Nat)
  /-- SOPEN (R314). -/
  | sopen (c : Nat) (t : Fin 4) (k : BitVec 4) (stream : BitVec 2) (cm cr : BitVec 4) (ga : BitVec 5)
  /-- SNEXT (R317). -/
  | snext (c : Nat) (t : Fin 4) (k : BitVec 4) (stream : BitVec 2) (gd : BitVec 5)
  /-- SCLOSE (R319). -/
  | sclose (c : Nat) (t : Fin 4) (k : BitVec 4) (stream : BitVec 2)
  /-- SRESUME (R322). -/
  | sresume (c : Nat) (t : Fin 4) (k : BitVec 4) (stream : BitVec 2)
  /-- SSTAT (R324). -/
  | sstat (c : Nat) (t : Fin 4) (k : BitVec 4) (stream : BitVec 2) (gd : BitVec 5) (sel : BitVec 2)
  /-- STREAM_REQUEST_ISSUE (R316). -/
  | streamRequestIssue (c : Nat)
  /-- STREAM_REPLY_LAND (R316). -/
  | streamReplyLand (c : Nat)
  /-- STREAM_WRITE_ACK_LAND (R318). -/
  | streamWriteAckLand (c : Nat)
  /-- STR_CTL_RESUME (R322). -/
  | strCtlResume (c : Nat) (stream : BitVec 2)
  /-- STR_CTL_ABORT (R326). -/
  | strCtlAbort (c : Nat) (stream : BitVec 2)
  /-- PORT_REQUEST_ACCEPT (R305). -/
  | portRequestAccept (port link : Nat)
  /-- PORT_READ_REPLY (R309). -/
  | portReadReply (port : Nat)
  /-- PORT_WRITE_ACK (R306). -/
  | portWriteAck (port : Nat)
  /-- MERGE_ENTRY_EXPIRE (R308). -/
  | mergeEntryExpire (port block : Nat)
  /-- PATROL_SCRUB (R310). -/
  | patrolScrub (port : Nat)
  /-- MP_CNT_CLR (R311). -/
  | mpCntClr (port : Nat)
  /-- BACK_INVALIDATE (R330). -/
  | backInvalidate (line : Nat)
  /-- HOST_SNOOP_RESPONSE (R330). -/
  | hostSnoopResponse (line : Nat) (data : Option (List Byte))
  /-- HOST_WINDOW_READ (R329). -/
  | hostWindowRead (addr : Nat)
  /-- HOST_WINDOW_WRITE (R329). -/
  | hostWindowWrite (addr : Nat) (data : List Byte)
  /-- HDM_DECODER_COMMIT (R329). -/
  | hdmDecoderCommit (base : Nat) (range : HdmRange)
  /-- HMEM_ACCESS_COMPLETE (R331). -/
  | hmemAccessComplete (ok : Bool)
  /-- COOLING_WRITE (R4). -/
  | coolingWrite (v : Word)
  /-- HOST_WIN_WRITE (R334). -/
  | hostWinWrite (off : Nat) (v : Word)
  /-- SQ_CFG_WRITE (R334). -/
  | sqCfgWrite (ring off : Nat) (v : Word)
  /-- CQ_CFG_WRITE (R334). -/
  | cqCfgWrite (ring off : Nat) (v : Word)
  /-- RR_CFG_WRITE (R334). -/
  | rrCfgWrite (debug : Bool) (off : Nat) (v : Word)
  /-- SQ_TAIL_DB (R335). -/
  | sqTailDb (ring : Nat) (v : Word)
  /-- CQ_HEAD_DB (R340). -/
  | cqHeadDb (ring : Nat) (v : Word)
  /-- EVT_HEAD_DB (R340). -/
  | evtHeadDb (v : Word)
  /-- DBG_HEAD_DB (R340). -/
  | dbgHeadDb (v : Word)
  /-- SUBMISSION_FETCH (R336). -/
  | submissionFetch (pair : Nat)
  /-- RECORD_WRITE (R341). -/
  | recordWrite (ring : Nat)
  /-- EVENT_BACKLOG_POST (R344). -/
  | eventBacklogPost
  /-- NOP (R349). -/
  | nop (pair : Nat)
  /-- MEM_MAP (R351). -/
  | memMap (pair : Nat)
  /-- CFG_WRITE (R350). -/
  | cfgWrite (pair : Nat)
  /-- CFG_READ (R350). -/
  | cfgRead (pair : Nat)
  /-- STAND_LOAD (R352). -/
  | standLoad (pair : Nat)
  /-- STAND_CTL_START (R352). -/
  | standCtlStart (pair : Nat)
  /-- STAND_CTL_STOP (R352). -/
  | standCtlStop (pair : Nat)
  /-- STAND_CTL_ABORT (R352). -/
  | standCtlAbort (pair : Nat)
  /-- STAND_CTL_UNLOAD (R352). -/
  | standCtlUnload (pair : Nat)
  /-- COPY (R361). -/
  | copy (pair : Nat)
  /-- FILL (R361). -/
  | fill (pair : Nat)
  /-- COMPARE (R366). -/
  | compare (pair : Nat)
  /-- DMA_ENGINE_ASSIGN (R362). -/
  | dmaEngineAssign (engine : Nat)
  /-- DMA_READ_REQUEST (R363). -/
  | dmaReadRequest (engine : Nat)
  /-- DMA_WRITE_BEAT (R363). -/
  | dmaWriteBeat (engine : Nat)
  /-- DMA_TRANSFER_COMPLETE (R365). -/
  | dmaTransferComplete (engine : Nat)
  /-- DMA_CNT_CLR (R370). -/
  | dmaCntClr (engine : Nat)
  /-- FLOW_OPEN_PORT (R373). -/
  | flowOpenPort (pair : Nat)
  /-- FLOW_OPEN_FLOW (R373). -/
  | flowOpenFlow (pair : Nat)
  /-- FLOW_OPEN_STAT (R390). -/
  | flowOpenStat (pair : Nat)
  /-- FLOW_CLOSE (R374). -/
  | flowClose (pair : Nat)
  /-- GLADE_PACKET_RECEIVE (R377). -/
  | gladePacketReceive (port : Nat) (d : Datagram)
  /-- GLADE_ACK_RECEIVE (R377). -/
  | gladeAckReceive (port : Nat) (d : Datagram)
  /-- GLADE_PEER_CLOSE (R375). -/
  | gladePeerClose (port : Nat) (d : Datagram)
  /-- GLADE_RETRANSMIT (R377). -/
  | gladeRetransmit (flow : Nat)
  /-- GLADE_PACKET_SEND (R379). -/
  | gladePacketSend (flow : Nat)
  /-- MREAD_REPLY (R382). -/
  | mreadReply (flow : Nat)
  /-- RX_RING_DELIVER (R380). -/
  | rxRingDeliver (flow : Nat)
  /-- FRAME_START (R385). -/
  | frameStart (flow : Nat)
  /-- FRAME_DONE (R386). -/
  | frameDone (flow : Nat)
  /-- FRAME_OPEN (R383). -/
  | frameOpen (pair : Nat)
  /-- FRAME_CLOSE (R389). -/
  | frameClose (pair : Nat)
  /-- ETH_RX_OTHER (R371). -/
  | ethRxOther (port : Nat) (frame : List Byte)
  /-- HEARTBEAT (R394). -/
  | heartbeat (die : Nat)
  /-- LEAD_TAKEOVER (R395). -/
  | leadTakeover
  /-- POWER_WINDOW (R401). -/
  | powerWindow (meanMw : Nat)
  /-- DVFS_STEP_UP_SWITCH (R399). -/
  | dvfsStepUpSwitch (die : Nat)
  /-- SENSOR_SAMPLE (R403). -/
  | sensorSample (die : Nat) (readings : List Nat)
  /-- THERMAL_GUARD_TRIP (R407). -/
  | thermalGuardTrip (die : Nat) (grove : Option Nat)
  /-- FW_UPDATE (R416). -/
  | fwUpdate (pair : Nat)
  /-- DIE_FW_READY (R417). -/
  | dieFwReady (die : Nat) (ok : Bool)
  /-- EXT_EVT_CTL_WRITE (R413). -/
  | extEvtCtlWrite (c : Nat) (v : Word)
  /-- GROVE_SERVICE_FENCE (R429). -/
  | groveServiceFence (pair : Nat)
  /-- GROVE_SERVICE_TEST (R429). -/
  | groveServiceTest (pair : Nat)
  /-- GROVE_SERVICE_RETURN (R429). -/
  | groveServiceReturn (pair : Nat)
  /-- GROVE_SERVICE_SERVICE (R429). -/
  | groveServiceService (pair : Nat)
  /-- GROVE_TEST_DONE (R430). -/
  | groveTestDone (grove : Nat) (ended : TestEnd)
  /-- LIVENESS_PROBE (R437). -/
  | livenessProbe (p : Probes)
  /-- DIE_HEARTBEAT_LOSS_PROBE (R439). -/
  | dieHeartbeatLossProbe (die : Nat) (answers : Bool)
  /-- DIE_TRUNK_LOST (R440). -/
  | dieTrunkLost (die : Nat)
  /-- CHECK_CFG_WRITE (R435). -/
  | checkCfgWrite (c : Nat) (v : Word)
  /-- GET_IDENTITY (R450). -/
  | getIdentity (msg : List Byte)
  /-- ATTEST (R451). -/
  | attest (msg : List Byte)
  /-- KEY_EXCHANGE (R452). -/
  | keyExchange (msg : List Byte)
  /-- CLOSE_MESSAGE (R461). -/
  | closeMessage (msg : List Byte)
  /-- IDE_KEYS (R462). -/
  | ideKeys (msg : List Byte)
  /-- IDE_KEY_SWITCH (R462). -/
  | ideKeySwitch
  /-- SESSION_IDENTITY (R446). -/
  | sessionIdentity (pair : Nat)
  /-- SESSION_SEAL (R453). -/
  | sessionSeal (pair : Nat)
  /-- SESSION_IMPORT (R456). -/
  | sessionImport (pair : Nat)
  /-- SESSION_EXPORT (R456). -/
  | sessionExport (pair : Nat)
  /-- SESSION_CLOSE (R461). -/
  | sessionClose (pair : Nat)
  /-- SESSION_UNSEAL (R460). -/
  | sessionUnseal (pair : Nat)
  /-- FW_LOAD_LOAD (R472). -/
  | fwLoadLoad (pair : Nat)
  /-- FW_LOAD_SET_STATE (R473). -/
  | fwLoadSetState (pair : Nat)
  /-- FUNCTION_RESET (R477). -/
  | functionReset
  /-- LIGHT_GROVE_DEFERRED_RESET (R477). -/
  | lightGroveDeferredReset (c : Nat)
  /-- CORE_RESET (R478). -/
  | coreReset (c : Nat)
  /-- DBG_STOP (R483). -/
  | dbgStop (c : Nat) (v : Word)
  /-- DBG_STEP (R485). -/
  | dbgStep (c : Nat) (v : Word)
  /-- DBG_RESUME (R484). -/
  | dbgResume (c : Nat) (v : Word)
  /-- DEBUG_REQUEST (R480). -/
  | debugRequest (c : Nat) (t : Fin 4) (k cs : BitVec 4) (ga : BitVec 5) (len : BitVec 4) (rel : Bool)
  /-- DEBUG_REPLY_LAND (R481). -/
  | debugReplyLand (c : Nat)
  /-- DBG_REPLY_WRITE (R481). -/
  | dbgReplyWrite (c : Nat) (v : Word)
  /-- THREAD_WINDOW_WRITE (R488). -/
  | threadWindowWrite (c off : Nat) (v : Word)
  /-- TRACE_CTL_WRITE (R495). -/
  | traceCtlWrite (c : Nat) (v : Word)
  /-- DEBUG_RECORD_POST (R496). -/
  | debugRecordPost (c : Nat)
  /-- BP_WP_WRITE (R497). -/
  | bpWpWrite (c off : Nat) (v : Word)
  /-- BYPASS (R498). -/
  | bypass
  /-- IDCODE (R498). -/
  | idcode
  /-- SAMPLE_PRELOAD (R498). -/
  | samplePreload (pins : List Bool)
  /-- EXTEST (R498). -/
  | extest
  /-- ENTDAA (R499). -/
  | entdaa (addr : BitVec 7)
  /-- I3C_PRIVATE_READ (R499). -/
  | i3cPrivateRead (reg : Nat)
  /-- CONFIG_REGISTER_WRITE (R297). -/
  | configRegisterWrite (tgt : CfgTarget) (off : Nat) (v : Word)
  /-- DMA_READ_REPLY (R363). -/
  | dmaReadReply (engine : Nat)
  /-- PORT_BLOCK_WRITE_ACK_LAND (R385). -/
  | portBlockWriteAckLand (port : Nat)
  /-- MSIX_VECTOR_UNMASK (R346). -/
  | msixVectorUnmask (e : MsixEntry)
  /-- DOE_DISCOVERY (R326). -/
  | doeDiscovery (idx : Nat)
  /-- HDM_DECODER_UNCOMMIT (R329). -/
  | hdmDecoderUncommit
  /-- ETH_LINK_UP (R390). -/
  | ethLinkUp (port : Nat)
  /-- ETH_LINK_DOWN (R390). -/
  | ethLinkDown (port : Nat)
  /-- AUX_SUPPLY_APPLIED (R510). -/
  | auxSupplyApplied
  /-- AUX_SUPPLY_REMOVED (R510). -/
  | auxSupplyRemoved
  deriving DecidableEq, Repr

end Sys2Proof
end

