-- ==== Sys2Proof/Decode.lean ====
section
/-! DEFINITION. The words of Arbin instructions (Tables 03.2, 03.9, 05.4, 05.10, 07.5, 08.4, 09.1, 10.3, 11.2, 13.5) and
the table's own words: the rows of spec/opcode_table.json give no bits, so no word spells a command. -/
namespace Sys2Proof

/-- The command that a word spells by the table's bits: no row gives bits, so none does. -/
def decodeTableWord (_nbits _w : Nat) : Option Instr := none

/-- FN of a register ALU function (Table 03.9). -/
def Alu.fn : Alu → BitVec 6
  | .add => 0 | .adc => 1 | .sub => 2 | .sbc => 3 | .and => 4 | .or => 5 | .xor => 6 | .andn => 7
  | .shl => 8 | .shr => 9 | .sar => 10 | .ror => 11 | .mul => 12 | .mulhs => 13 | .mulhu => 14
  | .min => 15 | .max => 16 | .minu => 17 | .maxu => 18

/-- The register ALU function of an FN (Table 03.9). -/
def aluOf (fn : BitVec 6) : Option Alu :=
  match fn.toNat with
  | 0 => some .add | 1 => some .adc | 2 => some .sub | 3 => some .sbc | 4 => some .and | 5 => some .or
  | 6 => some .xor | 7 => some .andn | 8 => some .shl | 9 => some .shr | 10 => some .sar | 11 => some .ror
  | 12 => some .mul | 13 => some .mulhs | 14 => some .mulhu | 15 => some .min | 16 => some .max
  | 17 => some .minu | 18 => some .maxu | _ => none

/-- The major opcode of an immediate ALU instruction (Table 03.9); 63, reserved, where there is none. -/
def Alu.immOp : Alu → BitVec 6
  | .add => 0x01 | .and => 0x02 | .or => 0x03 | .xor => 0x04 | _ => 63

/-- FN of a vector function (Table 03.9). -/
def VFn.fn : VFn → BitVec 4
  | .add => 0 | .sub => 1 | .mul => 2 | .fma => 3 | .min => 4 | .max => 5 | .and => 6 | .or => 7 | .xor => 8
  | .shl => 9 | .shr => 10 | .sel => 11 | .abs => 12 | .adds => 13 | .subs => 14

/-- The vector function of an FN (Table 03.9). -/
def vfnOf (fn : BitVec 4) : Option VFn :=
  match fn.toNat with
  | 0 => some .add | 1 => some .sub | 2 => some .mul | 3 => some .fma | 4 => some .min | 5 => some .max
  | 6 => some .and | 7 => some .or | 8 => some .xor | 9 => some .shl | 10 => some .shr | 11 => some .sel
  | 12 => some .abs | 13 => some .adds | 14 => some .subs | _ => none

/-- SUB of a reduction (Table 03.9). -/
def VRed.sub : VRed → BitVec 3
  | .sum => 3 | .max => 4 | .min => 5

/-- One bit as a field. -/
def bit1 (b : Bool) : BitVec 1 := BitVec.ofBool b

/-- An instruction's major opcode and its 22 operand bits. -/
def Op.fields : Op → BitVec 6 × BitVec 22
  | .alu f gd ga gb s => (0x00, gd ++ ga ++ gb ++ f.fn ++ bit1 s)
  | .clz gd ga => (0x00, gd ++ ga ++ 0#5 ++ 19#6 ++ 0#1)
  | .bperm gd ga gb => (0x00, gd ++ ga ++ gb ++ 20#6 ++ 0#1)
  | .cmp ga gb => (0x00, 0#5 ++ ga ++ gb ++ 21#6 ++ 0#1)
  | .aluImm f gd ga s imm => (f.immOp, gd ++ ga ++ bit1 s ++ imm)
  | .cmpi ga imm => (0x05, 0#5 ++ ga ++ 0#1 ++ imm)
  | .movi gd imm => (0x06, gd ++ 0#1 ++ imm)
  | .movhi gd imm => (0x07, gd ++ 0#1 ++ imm)
  | .shiftImm kind gd ga amount s => (0x08, gd ++ ga ++ kind ++ amount ++ bit1 s ++ 0#4)
  | .bfi gd ga pos width => (0x09, gd ++ ga ++ pos ++ width ++ 0#1)
  | .bfx gd ga pos width sgn => (0x0A, gd ++ ga ++ pos ++ width ++ bit1 sgn)
  | .macd gd z p size => (0x0C, gd ++ bit1 z ++ bit1 p ++ size ++ 0#13)
  | .vmacd vd z p ty => (0x0D, vd ++ bit1 z ++ bit1 p ++ ty ++ 0#13)
  | .ldr rd c ga size imm => (0x10, rd ++ c ++ ga ++ size ++ imm)
  | .str rs c ga size imm => (0x11, rs ++ c ++ ga ++ size ++ imm)
  | .lda rd ag p size => (0x14, rd ++ ag ++ bit1 p ++ size ++ 0#11)
  | .sta rs ag p size => (0x15, rs ++ ag ++ bit1 p ++ size ++ 0#11)
  | .agset ag ga field => (0x16, ag ++ 0#3 ++ ga ++ field ++ 0#9)
  | .agget ag gd field => (0x16, ag ++ 1#3 ++ gd ++ field ++ 0#9)
  | .agadd ag imm => (0x16, ag ++ 2#3 ++ imm)
  | .agbind ag c => (0x16, ag ++ 3#3 ++ 0#1 ++ c ++ 0#12)
  | .b off => (0x18, off)
  | .bl off => (0x19, off)
  | .br ga link => (0x1A, ga ++ bit1 link ++ 0#16)
  | .rdsr gd sr => (0x1D, gd ++ 0#3 ++ 0#10 ++ sr)
  | .iflush => (0x1D, 0#5 ++ 1#3 ++ 0#14)
  | .vop f vd va vb ty => (0x20, vd ++ va ++ vb ++ f.fn ++ ty)
  | .vcmp vd va vb cc s ty => (0x21, vd ++ va ++ vb ++ cc ++ bit1 s ++ ty)
  | .vbcast vd ga lane ty => (0x22, vd ++ ga ++ 0#3 ++ lane ++ ty)
  | .vext gd va lane ty => (0x22, gd ++ va ++ 1#3 ++ lane ++ ty)
  | .vins vd ga lane ty => (0x22, vd ++ ga ++ 2#3 ++ lane ++ ty)
  | .vred f vd va ty => (0x22, vd ++ va ++ f.sub ++ 0#6 ++ ty)
  | .vcvt vd va src dst part rm ovf =>
    (12#4 ++ rm.extractLsb' 2 1 ++ bit1 ovf, vd ++ va ++ src ++ dst ++ part ++ rm.extractLsb' 0 2)
  | .cld cd cb ga => (0x1B, 0#3 ++ cd ++ cb ++ ga ++ 0#6)
  | .cst cs cb ga => (0x1B, 1#3 ++ cs ++ cb ++ ga ++ 0#6)
  | .cmov cd cs clr => (0x1B, 2#3 ++ cd ++ cs ++ 0#10 ++ bit1 clr)
  | .cnarrow cd cs ga gb => (0x1B, 3#3 ++ cd ++ cs ++ ga ++ gb ++ 0#1)
  | .cinfo gd cs field => (0x1B, 4#3 ++ gd ++ cs ++ field ++ 0#7)
  | .cstamp cd cs ca ga => (0x1B, 5#3 ++ cd ++ cs ++ ca ++ ga ++ 0#2)
  | .credeem cd cs ca => (0x1B, 6#3 ++ cd ++ cs ++ ca ++ 0#7)
  | .ctest cs ga => (0x1B, 7#3 ++ 0#1 ++ cs ++ ga ++ 0#9)
  | .crevoke ca ga => (0x1B, 7#3 ++ 1#1 ++ ca ++ ga ++ 0#9)
  | .trap n cs => (0x1C, 0#3 ++ n ++ cs ++ 0#7)
  | .rfe csys => (0x1C, 1#3 ++ 0#8 ++ csys ++ 0#7)
  | .ssrd field gd set => (0x1C, 2#3 ++ field ++ gd ++ bit1 set ++ 0#9)
  | .sswr field ga set => (0x1C, 3#3 ++ field ++ ga ++ bit1 set ++ 0#9)
  | .scrd cfield cd set => (0x1C, 4#3 ++ cfield ++ cd ++ 0#3 ++ bit1 set ++ 0#9)
  | .scwr cfield cs set => (0x1C, 5#3 ++ cfield ++ cs ++ 0#3 ++ bit1 set ++ 0#9)
  | .tcfg target fmt shape layout => (0x38, 0#3 ++ target ++ fmt ++ shape ++ layout ++ 0#7)
  | .tfree tmask amask => (0x38, 1#3 ++ tmask ++ amask ++ 0#7)
  | .mstat gd sel => (0x38, 2#3 ++ gd ++ sel ++ 0#10)
  | .aclr amask => (0x38, 3#3 ++ 0#8 ++ amask ++ 0#7)
  | .azero amask => (0x38, 4#3 ++ 0#8 ++ amask ++ 0#7)
  | .tld tile ag p => (0x39, 0#1 ++ tile ++ ag ++ bit1 p ++ 0#15)
  | .tst tile ag p => (0x39, 1#1 ++ tile ++ ag ++ bit1 p ++ 0#15)
  | .mma acc ta tb z sp tm => (0x3A, acc ++ ta ++ tb ++ bit1 z ++ sp ++ tm ++ 0#8)
  | .aget vd acc pair => (0x3B, 0#1 ++ vd ++ acc ++ pair ++ 0#12)
  | .aput va acc pair => (0x3B, 1#1 ++ va ++ acc ++ pair ++ 0#12)
  | .vroute gn gb cc fin p => (0x25, gn ++ gb ++ cc ++ bit1 fin ++ bit1 p ++ 0#6)
  | .vdelta layer gn => (0x24, 0#1 ++ layer ++ gn ++ 0#12)
  | .dlframe layer gd ga => (0x24, 1#1 ++ layer ++ gd ++ ga ++ 0#7)
  | .ctxsw ctx disp => (0x3E, 0#3 ++ ctx ++ disp ++ 0#15)
  | .tsend port va len rel => (0x3E, 1#3 ++ port ++ va ++ len ++ bit1 rel ++ 0#6)
  | .tend => (0x3E, 2#3 ++ 0#19)
  | .tdone cs ga => (0x3E, 3#3 ++ cs ++ ga ++ 0#10)
  | .stctl cs op => (0x3E, 4#3 ++ cs ++ op ++ 0#13)
  | .tstat gd sel => (0x3E, 5#3 ++ gd ++ sel ++ 0#10)
  | .mput size r idx => (0x3C, 0#3 ++ bit1 size ++ r ++ idx ++ 0#9)
  | .send cs ga len rel => (0x3C, 1#3 ++ cs ++ ga ++ len ++ bit1 rel ++ 0#5)
  | .recv cs ga vd gd => (0x3C, 2#3 ++ cs ++ ga ++ vd ++ gd)
  | .cinc cs ga gb imm => (0x3C, 3#3 ++ cs ++ ga ++ gb ++ bit1 imm ++ 0#4)
  | .cwait cs ga gb wide => (0x3C, 4#3 ++ cs ++ ga ++ gb ++ bit1 wide ++ 0#4)
  | .crd cs ga gd hi => (0x3C, 5#3 ++ cs ++ ga ++ gd ++ bit1 hi ++ 0#4)
  | .chstat cs ga gd side => (0x3C, 6#3 ++ cs ++ ga ++ gd ++ bit1 side ++ 0#4)
  | .sopen stream cm cr ga => (0x3D, 0#3 ++ stream ++ cm ++ cr ++ ga ++ 0#4)
  | .snext stream gd => (0x3D, 1#3 ++ stream ++ gd ++ 0#12)
  | .sclose stream => (0x3D, 2#3 ++ stream ++ 0#17)
  | .sresume stream => (0x3D, 3#3 ++ stream ++ 0#17)
  | .sstat stream gd sel => (0x3D, 4#3 ++ stream ++ gd ++ sel ++ 0#10)

/-- The instruction word of an instruction under condition code k (Table 03.2). -/
def encodeOp (k : BitVec 4) (op : Op) : BitVec 32 :=
  let (mj, lo) := op.fields
  k ++ mj ++ lo

/-- The instruction a major opcode and 22 operand bits may spell, reserved bits unread. -/
def opOf (mj : BitVec 6) (x : BitVec 22) : Option Op :=
  let f := fun (lo w : Nat) => x.extractLsb' lo w
  let b := fun (i : Nat) => x.getLsbD i
  match mj.toNat with
  | 0x00 =>
    match (f 1 6).toNat with
    | 19 => some (.clz (f 17 5) (f 12 5))
    | 20 => some (.bperm (f 17 5) (f 12 5) (f 7 5))
    | 21 => some (.cmp (f 12 5) (f 7 5))
    | _ => (aluOf (f 1 6)).map fun a => .alu a (f 17 5) (f 12 5) (f 7 5) (b 0)
  | 0x01 => some (.aluImm .add (f 17 5) (f 12 5) (b 11) (f 0 11))
  | 0x02 => some (.aluImm .and (f 17 5) (f 12 5) (b 11) (f 0 11))
  | 0x03 => some (.aluImm .or (f 17 5) (f 12 5) (b 11) (f 0 11))
  | 0x04 => some (.aluImm .xor (f 17 5) (f 12 5) (b 11) (f 0 11))
  | 0x05 => some (.cmpi (f 12 5) (f 0 11))
  | 0x06 => some (.movi (f 17 5) (f 0 16))
  | 0x07 => some (.movhi (f 17 5) (f 0 16))
  | 0x08 => some (.shiftImm (f 10 2) (f 17 5) (f 12 5) (f 5 5) (b 4))
  | 0x09 => some (.bfi (f 17 5) (f 12 5) (f 7 5) (f 1 6))
  | 0x0A => some (.bfx (f 17 5) (f 12 5) (f 7 5) (f 1 6) (b 0))
  | 0x0C => some (.macd (f 17 5) (b 16) (b 15) (f 13 2))
  | 0x0D => some (.vmacd (f 17 5) (b 16) (b 15) (f 13 2))
  | 0x10 => some (.ldr (f 17 5) (f 13 4) (f 8 5) (f 5 3) (f 0 5))
  | 0x11 => some (.str (f 17 5) (f 13 4) (f 8 5) (f 5 3) (f 0 5))
  | 0x14 => some (.lda (f 17 5) (f 15 2) (b 14) (f 11 3))
  | 0x15 => some (.sta (f 17 5) (f 15 2) (b 14) (f 11 3))
  | 0x16 =>
    match (f 17 3).toNat with
    | 0 => some (.agset (f 20 2) (f 12 5) (f 9 3))
    | 1 => some (.agget (f 20 2) (f 12 5) (f 9 3))
    | 2 => some (.agadd (f 20 2) (f 0 17))
    | 3 => some (.agbind (f 20 2) (f 12 4))
    | _ => none
  | 0x18 => some (.b x)
  | 0x19 => some (.bl x)
  | 0x1A => some (.br (f 17 5) (b 16))
  | 0x1B =>
    match (f 19 3).toNat with
    | 0 => some (.cld (f 15 4) (f 11 4) (f 6 5))
    | 1 => some (.cst (f 15 4) (f 11 4) (f 6 5))
    | 2 => some (.cmov (f 15 4) (f 11 4) (b 0))
    | 3 => some (.cnarrow (f 15 4) (f 11 4) (f 6 5) (f 1 5))
    | 4 => some (.cinfo (f 14 5) (f 10 4) (f 7 3))
    | 5 => some (.cstamp (f 15 4) (f 11 4) (f 7 4) (f 2 5))
    | 6 => some (.credeem (f 15 4) (f 11 4) (f 7 4))
    | _ => if b 18 then some (.crevoke (f 14 4) (f 9 5)) else some (.ctest (f 14 4) (f 9 5))
  | 0x1C =>
    match (f 19 3).toNat with
    | 0 => some (.trap (f 11 8) (f 7 4))
    | 1 => some (.rfe (f 7 4))
    | 2 => some (.ssrd (f 15 4) (f 10 5) (b 9))
    | 3 => some (.sswr (f 15 4) (f 10 5) (b 9))
    | 4 => some (.scrd (f 17 2) (f 13 4) (b 9))
    | 5 => some (.scwr (f 17 2) (f 13 4) (b 9))
    | _ => none
  | 0x1D =>
    match (f 14 3).toNat with
    | 0 => some (.rdsr (f 17 5) (f 0 4))
    | 1 => some .iflush
    | _ => none
  | 0x20 => (vfnOf (f 3 4)).map fun a => .vop a (f 17 5) (f 12 5) (f 7 5) (f 0 3)
  | 0x21 => some (.vcmp (f 17 5) (f 12 5) (f 7 5) (f 4 3) (b 3) (f 0 3))
  | 0x22 =>
    match (f 9 3).toNat with
    | 0 => some (.vbcast (f 17 5) (f 12 5) (f 3 6) (f 0 3))
    | 1 => some (.vext (f 17 5) (f 12 5) (f 3 6) (f 0 3))
    | 2 => some (.vins (f 17 5) (f 12 5) (f 3 6) (f 0 3))
    | 3 => some (.vred .sum (f 17 5) (f 12 5) (f 0 3))
    | 4 => some (.vred .max (f 17 5) (f 12 5) (f 0 3))
    | 5 => some (.vred .min (f 17 5) (f 12 5) (f 0 3))
    | _ => none
  | 0x24 =>
    if b 21 then some (.dlframe (f 17 4) (f 12 5) (f 7 5)) else some (.vdelta (f 17 4) (f 12 5))
  | 0x25 => some (.vroute (f 17 5) (f 12 5) (f 8 4) (b 7) (b 6))
  | 0x30 => some (.vcvt (f 17 5) (f 12 5) (f 8 4) (f 4 4) (f 2 2) (0#1 ++ f 0 2) false)
  | 0x31 => some (.vcvt (f 17 5) (f 12 5) (f 8 4) (f 4 4) (f 2 2) (0#1 ++ f 0 2) true)
  | 0x32 => some (.vcvt (f 17 5) (f 12 5) (f 8 4) (f 4 4) (f 2 2) (1#1 ++ f 0 2) false)
  | 0x33 => some (.vcvt (f 17 5) (f 12 5) (f 8 4) (f 4 4) (f 2 2) (1#1 ++ f 0 2) true)
  | 0x38 =>
    match (f 19 3).toNat with
    | 0 => some (.tcfg (f 15 4) (f 11 4) (f 10 1) (f 7 3))
    | 1 => some (.tfree (f 11 8) (f 7 4))
    | 2 => some (.mstat (f 14 5) (f 10 4))
    | 3 => some (.aclr (f 7 4))
    | 4 => some (.azero (f 7 4))
    | _ => none
  | 0x39 => if b 21 then some (.tst (f 18 3) (f 16 2) (b 15)) else some (.tld (f 18 3) (f 16 2) (b 15))
  | 0x3A => some (.mma (f 20 2) (f 17 3) (f 14 3) (b 13) (f 11 2) (f 8 3))
  | 0x3B => if b 21 then some (.aput (f 16 5) (f 14 2) (f 12 2)) else some (.aget (f 16 5) (f 14 2) (f 12 2))
  | 0x3C =>
    match (f 19 3).toNat with
    | 0 => some (.mput (b 18) (f 13 5) (f 9 4))
    | 1 => some (.send (f 15 4) (f 10 5) (f 6 4) (b 5))
    | 2 => some (.recv (f 15 4) (f 10 5) (f 5 5) (f 0 5))
    | 3 => some (.cinc (f 15 4) (f 10 5) (f 5 5) (b 4))
    | 4 => some (.cwait (f 15 4) (f 10 5) (f 5 5) (b 4))
    | 5 => some (.crd (f 15 4) (f 10 5) (f 5 5) (b 4))
    | 6 => some (.chstat (f 15 4) (f 10 5) (f 5 5) (b 4))
    | _ => none
  | 0x3D =>
    match (f 19 3).toNat with
    | 0 => some (.sopen (f 17 2) (f 13 4) (f 9 4) (f 4 5))
    | 1 => some (.snext (f 17 2) (f 12 5))
    | 2 => some (.sclose (f 17 2))
    | 3 => some (.sresume (f 17 2))
    | 4 => some (.sstat (f 17 2) (f 12 5) (f 10 2))
    | _ => none
  | 0x3E =>
    match (f 19 3).toNat with
    | 0 => some (.ctxsw (f 17 2) (f 15 2))
    | 1 => some (.tsend (f 16 3) (f 11 5) (f 7 4) (b 6))
    | 2 => some .tend
    | 3 => some (.tdone (f 15 4) (f 10 5))
    | 4 => some (.stctl (f 15 4) (f 13 2))
    | 5 => some (.tstat (f 14 5) (f 10 4))
    | _ => none
  | _ => none

/-- The condition code and instruction of a word; none where a major opcode, function or sub-function code is reserved or a
reserved bit is set (R57). -/
def decodeOp (w : BitVec 32) : Option (BitVec 4 × Op) :=
  match opOf (w.extractLsb' 22 6) (w.extractLsb' 0 22) with
  | none => none
  | some op => if encodeOp (w.extractLsb' 28 4) op = w then some (w.extractLsb' 28 4, op) else none

end Sys2Proof
end

