-- ==== Sys2Proof/Machine/CoreState.lean ====
section
/-! DEFINITION. The state of one Arbin core: its core field (what a deep clearing loses) and the part of its tile that is
held in the trunk. Every field's default is its value at reset; a register for which the spec gives no reset value holds
0 (log 1). -/
namespace Sys2Proof.Machine

/-- A capability: 128 bits and the tag held out of band (R96). -/
structure Cap where
  tag : Bool := false
  bits : BitVec 128 := 0
  deriving DecidableEq, Repr

/-- An address generator (Table 05.5 of R65) and the C register it is bound to (R67). -/
structure AGen where
  base : BitVec 17 := 0
  index : BitVec 17 := 0
  step : BitVec 18 := 0
  modulus : BitVec 18 := 0
  mode : BitVec 2 := 0
  cap : Option (BitVec 4) := none
  deriving DecidableEq, Repr

/-- A progress register: PROGRESS, UNIT, VALID (Table 05.9). -/
structure Prog where
  progress : BitVec 16 := 0
  unit : BitVec 4 := 0
  valid : Bool := false
  deriving DecidableEq, Repr

/-- A synchronous cause with what its entry saves (Table 05.7). -/
structure FaultRec where
  cause : BitVec 4
  spc : BitVec 17
  sinfo : Word := 0
  saddr : Word := 0
  scap : Cap := {}
  prog : Prog := {}
  deriving DecidableEq, Repr

/-- A register an instruction reads or writes, for the dependency rule R63. -/
inductive RegRef where
  | g (i : Nat)
  | v (i : Nat)
  | c (i : Nat)
  | ag (i : Nat)
  | flag (i : Nat)                      -- N 3, Z 2, C 1, V 0
  | tile (i : Nat)
  | gm (i : Nat)                        -- G register as the accumulator of a MACD (Table 03.9)
  | vm (i : Nat)                        -- V register as the accumulator of an integer VMACD (R78)
  | vf (i : Nat)                        -- V register as the accumulator of an F32 VMACD (R78)
  deriving DecidableEq, Repr

/-- An instruction word in the fetch buffer, with whether its scratchpad word was uncorrectable (R127). -/
structure FetchSlot where
  word : Word
  bad : Bool
  deriving DecidableEq, Repr

/-- A place traffic comes from or goes to. -/
inductive Node where
  | core (w : Nat)
  | mem (m : Nat)
  | cxl
  | eth (e : Nat)
  | dma (e : Nat)
  deriving DecidableEq, Repr

/-- Why a message came back (R270, R242). -/
inductive Reject where
  | rejected | cleared | unreachable
  deriving DecidableEq, Repr

/-- What a mesh packet carries (Table 12.1). A tag tells the messages and responses of one enable of an outbound half from those
of another (R270). -/
inductive Body where
  | msg (srcEp dstEp : BitVec 5) (seq : BitVec 8) (tag : Nat) (data : List Byte)
  | sig (srcEp dstEp : BitVec 5) (seq : BitVec 8) (tag : Nat) (amount : Word) (thread : BitVec 2)
  | ack (ep : BitVec 5) (seq : BitVec 8) (tag : Nat)
  | nack (ep : BitVec 5) (seq : BitVec 8) (tag : Nat)
  | resume (ep : BitVec 5) (seq : BitVec 8) (tag : Nat)
  | reject (ep : BitVec 5) (seq : BitVec 8) (tag : Nat) (why : Reject)
  | rwrite (id : Nat) (win : BitVec 4) (off : BitVec 17) (data : List Byte) (zr : Option Bool)
  | rwack (id : Nat) (status : BitVec 2)                       -- 0 OK, 1 DISCARDED, 2 CLEARED
  | credit (win : BitVec 4) (units : Word)
  | token (port : BitVec 3) (queue : BitVec 2) (ctx : BitVec 2) (data : List Byte)
  | tcredit (port : BitVec 3) (units : Nat) (cleared : Bool)
  | rreq (id stream : Nat) (epoch : Nat) (addr len : Nat)       -- stream read request
  | wreq (id stream : Nat) (epoch : Nat) (addr : Nat) (data : List Byte) -- stream write request
  | rrep (id stream : Nat) (epoch : Nat) (fault : BitVec 4) (data : List Byte)
  | wack (id stream : Nat) (epoch : Nat) (fault : BitVec 4)
  | dread (id : Nat) (addr len : Nat)
  | dwrite (id : Nat) (addr : Nat) (data : List Byte)
  | drep (id : Nat) (fault : BitVec 4) (data : List Byte)
  | dack (id : Nat) (fault : BitVec 4)
  | rpiece (id stream epoch off : Nat) (data : List Byte) (last : Bool)  -- 64 bytes of a longer stream reply, at the core (R289)
  | emsg (flow : Nat) (srcEp dstEp : BitVec 5) (seq : BitVec 8) (tag : Nat) (data : List Byte)      -- to a Glade flow (R379)
  | esig (flow : Nat) (srcEp dstEp : BitVec 5) (seq : BitVec 8) (tag : Nat) (amount : Word)
  deriving DecidableEq, Repr

/-- A mesh packet: source, target, dimension order, virtual channel, flits and contents (R283, R284). -/
structure Packet where
  src : Node
  dst : Node
  yx : Bool
  vc : BitVec 2
  flits : Nat
  body : Body
  deriving DecidableEq, Repr

/-- What a release does when it takes effect (R135). -/
inductive RelAct where
  | nothing
  | pool (id : Nat)                          -- the pool entry it holds may leave (R263, R273)
  | kadd (k : BitVec 6) (amount : Word)      -- a local CINC (R273)
  | pkt (p : Packet)                         -- a token or a remote write with REL (R236, R138)
  deriving DecidableEq, Repr

/-- A queued release (R136): what it does, and the remote writes and committed chunks (stream, chunk) it waits for (R135). -/
structure Release where
  act : RelAct
  rw : List Nat
  wr : List (Nat × Nat)
  deriving DecidableEq, Repr

/-- A thread's registers and the state the core keeps for it (Tables 03.1, 04.1, 04.2). -/
structure Thread where
  g : Sparse Word := []
  v : Sparse (BitVec 512) := []
  c : Sparse Cap := []
  ag : Sparse AGen := []
  flags : BitVec 4 := 0                 -- N [3], Z [2], C [1], V [0]
  pc : BitVec 17 := 0
  prog : Prog := {}                     -- progress register (R115)
  fbuf : List FetchSlot := []           -- fetch buffer, from pc on (R61)
  bubble : Nat := 0                     -- remaining cycles of BRANCH (R62)
  busy : List (RegRef × Nat) := []      -- results not yet readable: cycles left (R63)
  faultHeld : Bool := false
  saveWait : Option FaultRec := none    -- a fault waiting for the L1 set (R110)
  stop : BitVec 4 := 0                  -- REASON_t of DBG_STAT; 0: not stopped
  stepping : Bool := false              -- a STEP is under way (R485)
  skipBp : Bool := false                -- the next issue is not matched (R491)
  started : Bool := false               -- enabled and started (R95)
  firing : Bool := false                -- stand thread within a firing (R232)
  stag : BitVec 512 := 0                -- staging buffer (R260)
  relq : List Release := []             -- release queue (R136)
  cycHi : Word := 0                     -- latched CYC_HI (R74)
  kHi : Word := 0                       -- latched high word of CRD (R280)
  deriving DecidableEq, Repr

/-- The scratchpad: bytes, granule tags (R99), error marks of 8-byte words (0 none, 1 correctable, 2 uncorrectable), corrected
words not yet written back (R126), tag parity errors (R99) and the error registers (Table 06.5). -/
structure Spad where
  mem : Sparse Byte := []
  tags : Sparse Bool := []
  tagBad : Sparse Bool := []
  err : Sparse (BitVec 2) := []
  wb : List Nat := []
  ce : BitVec 16 := 0
  errAddr : Word := 0
  ue : BitVec 16 := 0
  deriving DecidableEq, Repr

/-- SLOT_TABLE in force and pending, the pointer, THREAD_CTL and the last refusal (R93, R95). -/
structure ThreadCtl where
  slotTable : Word := 0
  slotPend : Option Word := none
  slotDue : Bool := false               -- the pointer has wrapped since: the pending table takes effect (R95)
  pointer : BitVec 4 := 0
  en : BitVec 4 := 0
  supFirst : Bool := false
  cfgErr : BitVec 4 := 0
  deriving DecidableEq, Repr

/-- A save set (Table 05.9). -/
structure SaveSet where
  occ : Bool := false
  spc : BitVec 17 := 0
  sflags : BitVec 4 := 0
  cause : BitVec 4 := 0
  thread : BitVec 2 := 0
  fromLevel : BitVec 2 := 0
  async : Bool := false
  sinfo : Word := 0
  saddr : Word := 0
  sprog : Prog := {}
  scapIdx : BitVec 4 := 0
  scapWb : Bool := false
  dispose : Bool := false
  sretPc : BitVec 17 := 0
  sretFlags : BitVec 4 := 0
  sretProg : Prog := {}
  scode : Cap := {}
  scap : Cap := {}
  sretCode : Cap := {}
  deriving DecidableEq, Repr

/-- Levels, save sets, capability slots and asynchronous causes (chapter 05). -/
structure Exc where
  level : BitVec 2 := 0
  l1 : SaveSet := {}
  l2 : SaveSet := {}
  l2double : Bool := false
  startPc : Sparse (BitVec 17) := []
  slots : Sparse Cap := []
  capErr : BitVec 8 := 0                -- CAP_CFG_ERR: CODE [3:0], SLOT [7:4]
  pend : BitVec 16 := 0                 -- bit c: asynchronous cause c pending (R111)
  pinfo : Sparse Word := []             -- SINFO of a pending cause
  paddr : Sparse Word := []             -- SADDR of a pending cause
  deriving DecidableEq, Repr

/-- An inbound window (Table 06.5). -/
structure IWin where
  base : BitVec 9 := 0
  len : BitVec 10 := 0
  cntr : BitVec 6 := 0
  en : Bool := false
  src : BitVec 18 := 0
  deriving DecidableEq, Repr

/-- An outbound credit entry (Table 06.5). -/
structure OCred where
  tgt : BitVec 18 := 0
  win : BitVec 4 := 0
  limit : BitVec 10 := 0
  cntr : BitVec 6 := 0
  en : Bool := false
  rwErr : Bool := false
  credOvf : Bool := false
  bal : BitVec 18 := 0
  deriving DecidableEq, Repr

/-- A remote write sent and not acknowledged (R140): its number, thread, credit entry and target. -/
structure RwOut where
  id : Nat
  thread : BitVec 2
  entry : BitVec 4
  tgt : Nat
  deriving DecidableEq, Repr

/-- Windows and outbound credit (chapter 06). -/
structure Win where
  iwin : Sparse IWin := []
  ocred : Sparse OCred := []
  rwOut : List RwOut := []
  rwNext : Nat := 0
  cfgErr : BitVec 9 := 0                -- WIN_CFG_ERR: CODE, INDEX, SIDE
  deriving DecidableEq, Repr

/-- A tile register (R144, R145): 16 rows of 64 bytes and the side store. -/
structure Tile where
  fmt : BitVec 4 := 1
  shape : Bool := true
  layout : BitVec 3 := 0
  data : BitVec 8192 := 0
  side : BitVec 512 := 0
  inUse : Bool := false
  part : Option (BitVec 4) := none      -- PARTIAL and its row count
  err : Sparse (BitVec 2) := []         -- error marks of 8-byte words (R166); words 128 up are the side store
  deriving DecidableEq, Repr

/-- An accumulator (R146): 64 elements of 32 bits, its format and flags. -/
structure Acc where
  fmt : BitVec 4 := 4
  data : BitVec 2048 := 0
  inUse : Bool := false
  ovf : Bool := false
  poison : Bool := false
  deriving DecidableEq, Repr

/-- An accepted MMA that has not finished (R158): its fields, and from its start the operand copies (R161, R182) and the
accumulators' starting contents. -/
structure MmaJob where
  acc : BitVec 2
  ta : BitVec 3
  tb : BitVec 3
  tm : BitVec 3
  z : Bool
  sp : BitVec 2
  n : Nat                               -- count at acceptance (R431)
  sampled : Bool
  started : Bool := false
  a : Tile := {}
  b : Tile := {}
  m : Tile := {}
  start0 : BitVec 2048 := 0
  start1 : BitVec 2048 := 0
  poisoned : Bool := false
  deriving DecidableEq, Repr

/-- How far check work has come (R168, R432, R433). -/
inductive CheckPhase where
  | taken | ready | running | compare | repeating
  deriving DecidableEq, Repr

/-- The check buffer of a checker (R168): the sampled MMA it serves, its origin core and the origin's checksums. -/
structure CheckBuf where
  origin : Nat
  job : MmaJob
  phase : CheckPhase := .taken
  sums : Option (DWord × DWord) := none
  skip : Bool := false
  csums : DWord × DWord := (0, 0)
  ue : Bool := false                    -- a word of the buffer cannot be corrected (R432)
  deriving DecidableEq, Repr

/-- The matrix unit and its checking state (chapters 07, 18). -/
structure Matrix where
  tiles : Sparse Tile := []
  accs : Sparse Acc := []
  queue : List MmaJob := []
  tcfgWait : Bool := false
  tce : BitVec 16 := 0                  -- MX_ERR.TILE_CE
  tue : BitVec 16 := 0                  -- MX_ERR.TILE_UE
  check : Option CheckBuf := none
  n : Nat := 0                          -- CHECK_N
  last : BitVec 2 := 0                  -- CHECK_STAT.LAST
  cfgRefused : Bool := false
  ccnt : Sparse DWord := []             -- counters of Table 18.5
  ready : Sparse Nat := []              -- die cycles before a loaded tile can be read (R153)
  deriving DecidableEq, Repr

/-- A resumable instruction in progress, or a VROUTE or VDELTA that is stopped (R114, R154, R214, Table 06.3): its unit and thread, the
level at which thread 0 issued it, the instruction and its word; the point it has reached stands in its thread's progress register. -/
structure Running where
  unit : BitVec 4
  thread : BitVec 2
  stopped : Bool
  level : Nat := 0
  op : Op
  word : Word
  wait : Nat := 0                       -- die cycles before its next unit (R153, R192, R213)
  spent : Nat := 0                      -- conflict cycles taken before its next unit (R122)
  lines : List (Nat × Nat × Bool) := [] -- tracked ranges: start, length, whether reads are held too (R134, R217)
  map : Option Nat := none              -- VDELTA: the bits of the unfinished map byte in a delta frame (R212)
  due : Bool := false                   -- VDELTA: that byte is still to be read after a resumption (R215)
  resumed : Bool := false               -- VDELTA: its start-up cycles are those of a resumption (R215)
  tok : Nat := 0                        -- VROUTE: the next token to examine (R193)
  pend : List (Nat × List Byte) := []   -- VROUTE: messages not yet accepted: endpoint, bytes (R192)
  sent : Sparse Nat := []               -- VROUTE: ROUTE messages for each expert (R191)
  seen : Nat := 0                       -- VROUTE: tokens counted in RT_TOKENS (R202)
  skip : Nat := 0                       -- VROUTE: messages that a rescan has still to pass over (R193)
  scan : Bool := false                  -- VROUTE: a rescan is under way (R193)
  deriving DecidableEq, Repr

/-- Conflict cycles of the selected instruction (R122): its thread and PC, the cycles spent and the lines read into holding lines. -/
structure Conflict where
  thread : Nat
  pc : BitVec 17
  spent : Nat
  lines : List Nat
  deriving DecidableEq, Repr

/-- Routing and zero-run registers (Table 08.8). -/
structure Sparsity where
  experts : BitVec 7 := 0
  topk : BitVec 3 := 0
  minEn : Bool := false
  payload : BitVec 3 := 0
  thresh : Word := 0
  zrOut : Word := 0
  zrIn : BitVec 16 := 0
  tokenEp : Word := 0
  exitFwd : Word := 0
  live : BitVec 64 := BitVec.allOnes 64
  cfgErr : BitVec 10 := 0               -- SP_CFG_ERR: CODE, INDEX
  zmap : Sparse (BitVec 14) := []
  expert : Sparse (BitVec 6) := []      -- CHAN [4:0], VALID [5]
  fwd : List (List Byte × List Nat) := []   -- pending forwards: message, endpoints left (R196)
  deriving DecidableEq, Repr

/-- A delta layer entry (Tables 09.3, 09.5): running and snapshot counts are BLOCKS, NZ, PASS, CLAMP. -/
structure DlEntry where
  type : BitVec 3 := 0
  keyInt : BitVec 8 := 0
  pos : BitVec 8 := 0
  keyNow : Bool := false
  lastKey : Bool := false
  en : Bool := false
  thr : Word := 0
  run : Sparse Word := []
  snap : Sparse Word := []
  deriving DecidableEq, Repr

/-- The delta entries and their error register (chapter 09). -/
structure Delta where
  layers : Sparse DlEntry := []
  cfgErr : BitVec 8 := 0
  resumeCyc : Word := 0
  deriving DecidableEq, Repr

/-- A token on chip (R233): the context it is tagged with, its source port (R240) and its bytes. -/
structure Token where
  ctx : BitVec 2
  port : BitVec 3
  data : List Byte
  deriving DecidableEq, Repr

/-- A token in a queue's extension (R241): its slot, tag, source port and length; its bytes stand in scratchpad. -/
structure ExtTok where
  slot : Nat
  ctx : BitVec 2
  port : BitVec 3
  len : Nat
  flush : Bool := false
  deriving DecidableEq, Repr

/-- A token queue (Table 10.7, R239, R241). -/
structure TQueue where
  src : BitVec 18 := 0
  extUnits : BitVec 5 := 0
  extBase : BitVec 7 := 0
  en : Bool := false
  hwm : BitVec 10 := 0
  toks : List Token := []
  ext : List ExtTok := []
  extNext : Nat := 0                    -- next extension slot written
  deriving DecidableEq, Repr

/-- An outbound token port (Table 10.7). -/
structure TPort where
  tgt : BitVec 18 := 0
  queue : BitVec 2 := 0
  ep : BitVec 5 := 0
  limit : BitVec 10 := 0
  en : Bool := false
  errCleared : Bool := false
  credOvf : Bool := false
  bal : BitVec 10 := 0
  deriving DecidableEq, Repr

/-- Stand state of a core (Table 10.7) and its context store (R230). -/
structure Stand where
  id : BitVec 12 := 0
  mode : Bool := false
  run : Bool := false
  ctxValid : BitVec 4 := 0
  curCtx : BitVec 2 := 0
  swPend : Bool := false
  swCtx : BitVec 2 := 0
  swDisp : BitVec 2 := 0
  stalled : Bool := false
  cfgErr : BitVec 8 := 0
  stallLog : BitVec 5 := 16
  doneCode : BitVec 8 := 0
  doneValid : Bool := false
  store : Sparse Word := []             -- context store word i, i = 0–511
  storeBad : Sparse Bool := []          -- uncorrectable 8-byte words of the store
  tq : Sparse TQueue := []
  tport : Sparse TPort := []
  deriving DecidableEq, Repr

/-- A message or signal in the send pool (R262): bytes, or the signal's amount. -/
structure PoolMsg where
  id : Nat := 0
  ep : BitVec 5 := 0
  seq : BitVec 8 := 0
  data : List Byte := []
  sig : Option Word := none
  thread : BitVec 2 := 0
  held : Bool := false                  -- its release has not taken effect (R263)
  sent : Bool := false
  resend : Bool := false                -- to be sent again (R269)
  dbg : Bool := false                   -- a debug request (R480): leaves over the understory
  deriving DecidableEq, Repr

/-- An outbound half (Table 11.5). -/
structure ChOut where
  tgt : BitVec 18 := 0
  tgtEp : BitVec 5 := 0
  order : BitVec 2 := 0
  ext : Bool := false
  en : Bool := false
  errRej : Bool := false
  errClr : Bool := false
  errUn : Bool := false
  seqNext : BitVec 8 := 0
  recovery : Bool := false
  tag : Nat := 0                        -- number of this enable (R270)
  deriving DecidableEq, Repr

/-- A received message: its ring slot, length and sequence number (R264). -/
structure InSlot where
  slot : BitVec 3
  len : Nat
  seq : BitVec 8
  deriving DecidableEq, Repr

/-- An inbound half (Table 11.5). -/
structure ChIn where
  src : BitVec 18 := 0
  srcEp : BitVec 5 := 0
  en : Bool := false
  sigEn : Bool := false
  sigCntr : BitVec 6 := 0
  qbase : BitVec 8 := 0
  seqExp : BitVec 8 := 0
  gap : Bool := false
  resumeSent : Bool := false
  resumeDue : Bool := false             -- a RESUME leaves in the next cycle (R268)
  gapTag : Nat := 0                     -- tag of the dropped message
  gapSrc : Option Node := none          -- its sender
  q : List InSlot := []
  head : BitVec 3 := 0                  -- slot of the next landing
  deriving DecidableEq, Repr

/-- A counter and its last signaller (R272, R277). -/
structure KCnt where
  val : DWord := 0
  kind : BitVec 3 := 0
  thread : BitVec 2 := 0
  ep : BitVec 5 := 0
  core : BitVec 18 := 0
  deriving DecidableEq, Repr

/-- Channels and counters (chapter 11). -/
structure Chan where
  out : Sparse ChOut := []
  inn : Sparse ChIn := []
  pool : List PoolMsg := []             -- in the order accepted
  poolNext : Nat := 0
  k : Sparse KCnt := []
  cfgErr : BitVec 11 := 0
  qwLog : BitVec 5 := 20
  qwEn : Bool := true
  stateMask : BitVec 16 := 0x0F18
  deriving DecidableEq, Repr

/-- An outstanding request of a stream (R312): chunk and part. -/
structure SReq where
  id : Nat
  chunk : Nat
  part : Nat
  stale : Bool := false                 -- its chunk has been asked for again since (R322)
  deriving DecidableEq, Repr

/-- A stream (R313 to R322, Table 13.6). -/
structure Stream where
  st : BitVec 3 := 0                    -- 0 CLOSED, 1 OPEN, 2 DONE, 3 HALTED, 4 ABORTED
  dir : Bool := false
  resumable : Bool := false
  notified : Bool := false
  owner : BitVec 2 := 0
  cm : Cap := {}
  cr : Cap := {}
  off : Nat := 0
  inner : Nat := 0
  outer : Nat := 0
  chunk : Nat := 0                      -- in 64-byte units
  total : Nat := 0
  slots : Nat := 0
  next : Nat := 0                       -- NEXT_CHUNK
  heldSlot : Bool := false              -- the slot the previous SNEXT returned is still with the thread
  commit : Nat := 0                     -- chunks committed (write stream)
  unacked : List (Nat × Nat) := []      -- committed chunks not acknowledged, with the committing thread (R318)
  iss : Nat := 0                        -- chunk whose request is issued next
  issPart : Nat := 0                    -- its next part
  out : List SReq := []
  redo : List (Nat × Nat) := []         -- chunk parts to be issued again (R322)
  faultChunk : BitVec 24 := 0
  reason : BitVec 4 := 0
  closing : Bool := false               -- an SCLOSE has discarded the unconsumed chunks (R319)
  deriving DecidableEq, Repr

/-- An accepted debug request of this core (R480, R481). -/
structure DbgReq where
  n : Nat
  target : Nat
  offset : Nat
  write : Bool
  value : Word
  deriving DecidableEq, Repr

/-- Debug registers held in the core field, and the trace buffer (Table 21.1). -/
structure Debug where
  merged : BitVec 8 := 0
  replyBase : BitVec 11 := 0
  replyCntr : BitVec 6 := 0
  replyEn : Bool := false
  replyN : Nat := 0
  reqs : List DbgReq := []              -- accepted and unanswered, oldest first
  bp : Sparse Word := []
  wpBase : Sparse Word := []
  wpCtl : Sparse Word := []
  traceMode : BitVec 2 := 0
  traceThr : BitVec 4 := 0
  traceWrap : Bool := false
  traceStop : Bool := false
  trace : Sparse DWord := []
  deriving DecidableEq, Repr

/-- A tracked range of a DMA transfer: the engine and slot of the transfer, the bytes not yet moved, whether they are its
destination, and whether the side is fixed (Table 06.3). -/
structure DmaRange where
  eng : Nat
  slot : Nat
  base : Nat
  len : Nat
  dst : Bool
  fixed : Bool
  deriving DecidableEq, Repr

/-- The core field: everything a deep clearing loses. -/
structure Field where
  thr : Sparse Thread := []
  spad : Spad := {}
  tc : ThreadCtl := {}
  exc : Exc := {}
  win : Win := {}
  mx : Matrix := {}
  run : Option Running := none          -- VROUTE or VDELTA in progress, or stopped (R214)
  mv : Option Running := none           -- TLD or TST in progress (R154)
  conf : Option Conflict := none
  sp : Sparsity := {}
  dl : Delta := {}
  st : Stand := {}
  ch : Chan := {}
  str : Sparse Stream := []
  strTurn : BitVec 2 := 0               -- stream whose turn comes next (R312)
  strId : Nat := 0
  dbg : Debug := {}
  dvfsEn : Bool := false                -- EXT_EVT_CTL (R413)
  dvfsMerged : BitVec 8 := 0
  dmaRange : List DmaRange := []        -- DMA transfers here: at most two (Table 06.3)
  deriving DecidableEq, Repr

/-- A flit: its packet and its number in it. -/
structure Flit where
  pkt : Packet
  idx : Nat
  deriving DecidableEq, Repr

/-- A notice of understory class 0 from a core to its steward (Table 12.5), or a debug record on its way there (R496). -/
inductive Notice where
  | l2 (scause : BitVec 9) (sinfo : Word)                  -- R119
  | l2double                                               -- R112
  | spadUe (addr : Nat)                                    -- R129
  | ctxUe (addr : Word)                                    -- R230, R438
  | tileUe                                                 -- R166
  | stall                                                  -- R247
  | check (sinfo : Word) (n : Nat) (o c1 : DWord)          -- R434
  | permanent (n : Nat) (o c1 : DWord)                     -- R433
  | streamFault (stream : Nat) (reason : BitVec 4)         -- R321
  | streamHalt (stream chunk : Nat) (reason : BitVec 4) (addr : Nat)   -- R322
  | dbgStop (reason : BitVec 4) (thread index : BitVec 2) (pc : BitVec 17) (addr : Word) (prog : Word)  -- R496
  | traceFull                                              -- R496
  deriving DecidableEq, Repr

/-- What an instruction asks of the module outside its core: a stand request (R253: 0 START, 1 STOP, 2 ABORT, 3 DONE with its
code), or the checker's buffer for a sampled MMA (R168). -/
inductive CoreReq where
  | stand (op stand : Nat) (code : BitVec 8)
  | takeCheck (job : MmaJob)
  deriving DecidableEq, Repr

/-- A router (R283, R284, R288): input buffers by port and virtual channel, held outputs and round-robin pointers; the
crossing queues at its own sides (R290) and the attachment queues toward the mesh and toward the port (R292).
Ports: 0 N, 1 E, 2 S, 3 W, 4 local, 5 and 6 attachments. -/
structure Router where
  inq : Sparse (List Flit) := []        -- key 4 · port + vc
  hold : Sparse (Option (Nat × Packet)) := []  -- output port: the message that holds it, and its input (4 · port + vc)
  rr : Sparse Nat := []                 -- output port: input port served last + 1
  xq : Sparse (List Flit) := []         -- crossing queue of side s
  xhwm : Sparse (BitVec 5) := []
  xfull : Sparse (BitVec 16) := []
  attOut : Sparse (List Flit) := []     -- attachment k: flits toward the port
  attIn : Sparse (List Flit) := []      -- attachment k: flits toward the mesh (R292)
  attSrc : Sparse (List Packet) := []   -- attachment k: packets of the port waiting for room in that queue
  engSrc : Sparse (List Packet) := []   -- attachment k: packets of the engines beside the port (R357)
  inj : Sparse Nat := []                -- flits of the first waiting packet of a virtual channel that have entered: key 4 · i + vc,
                                        -- i = 4 the core, 5 + k the engines at attachment k, 7 + k the port there
  deriving DecidableEq, Repr

/-- What the trunk holds for a core. -/
structure Trunk where
  cnt : Sparse DWord := []              -- counters: Table 08.6 at i, 10.5 at 32 + i, 11.3 at 64 + i, 13.6 at 96 + i, 21.5 at 128 + i
  latch : Sparse Word := []             -- latched high words (R202): key 65536 · requester + offset
  gen : Sparse (BitVec 11) := []        -- SEAL_GEN
  cyc : DWord := 0                      -- die cycles of this core
  alive : Word := 0
  checkS : BitVec 4 := 10               -- CHECK_CFG
  checkEn : Bool := true
  idleEn : Bool := false
  idleCnt : Nat := 0                    -- consecutive idle cycles (R199)
  stallCnt : Word := 0
  stallDue : Bool := false              -- STALL_CNT reached its limit; the trip follows (R247)
  qwCnt : Word := 0
  qwDue : Option (BitVec 16) := none    -- QW_CNT reached its limit with these states; the trip follows (R279)
  ringEn : Bool := false                -- DBG_CFG
  waitMask : BitVec 16 := 0x0F00
  dbgErr : BitVec 6 := 0
  traceCnt : BitVec 9 := 0
  traceNext : BitVec 8 := 0
  traceFull : Bool := false
  traceFrozen : Bool := false
  lostRsp : BitVec 16 := 0              -- LOST_RSP (R408)
  lostNow : Bool := false               -- a response was discarded in the light clearing under way (R409)
  lostAcks : List Nat := []             -- remote writes whose acknowledgement a light clearing discarded (R409)
  resetErr : BitVec 4 := 0              -- RESET_ERR (R478)
  outq : List Packet := []              -- packets waiting for the local port (R284)
  router : Router := {}
  inbox : List Packet := []             -- packets at the local port, to land
  held : List Packet := []              -- deliveries held while the grove wakes (R200)
  rwait : Nat := 0                      -- the access at the head of inbox: 0 no die cycle yet, 1 has waited one, 2 served (R123)
  rused : Bool := false                 -- a router-side access has taken place since the last die cycle (R199)
  notices : List Notice := []           -- notices on their way to the steward (R298)
  reqs : List CoreReq := []             -- requests just made of the module; none between commands
  session : Nat := 0                    -- session the core is bound to; 0 none
  epoch : Nat := 0                      -- request epoch (R320)
  resetMark : Bool := false             -- takes its core reset when the grove leaves LIGHT (R477)
  aliveSeen : Word := 0                 -- ALIVE at the last probe (R437)
  probeFail : Nat := 0
  deriving DecidableEq, Repr

/-- A core tile. -/
structure Core where
  f : Field := {}
  t : Trunk := {}
  deriving DecidableEq, Repr

end Sys2Proof.Machine
end

