-- ==== Sys2Proof/Machine/Bits.lean ====
section
/-! DEFINITION. Lanes, bytes and byte order (R56). -/
namespace Sys2Proof.Machine

/-- Bits [lo + w − 1 : lo] of a word. -/
def fld (x : BitVec n) (lo w : Nat) : BitVec w := x.extractLsb' lo w

/-- The number that bits [lo + w − 1 : lo] spell. -/
def fldN (x : BitVec n) (lo w : Nat) : Nat := (x.extractLsb' lo w).toNat

/-- Bit i of a word. -/
def bitOf (x : BitVec n) (i : Nat) : Bool := x.getLsbD i

/-- The word x with field [lo + w − 1 : lo] replaced by v. -/
def setFld (x : BitVec n) (lo w : Nat) (v : Nat) : BitVec n :=
  (x &&& ~~~(BitVec.ofNat n ((2 ^ w - 1) <<< lo))) ||| BitVec.ofNat n ((v % 2 ^ w) <<< lo)

/-- 1 or 0. -/
def b2n (b : Bool) : Nat := if b then 1 else 0

/-- Lane i of lane width w (R56). -/
def lane (w : Nat) (x : BitVec n) (i : Nat) : BitVec w := x.extractLsb' (w * i) w

/-- The register whose k lanes of width w are f 0, f 1, … (R56). -/
def ofLanes (n w k : Nat) (f : Nat → BitVec w) : BitVec n :=
  (List.range k).foldr (fun i acc => (acc <<< w) ||| (f i).setWidth n) 0

/-- The register x with lane i of width w replaced. -/
def setLane (w : Nat) (x : BitVec n) (i : Nat) (v : BitVec w) : BitVec n :=
  (x &&& ~~~(((BitVec.allOnes w).setWidth n) <<< (w * i))) ||| ((v.setWidth n) <<< (w * i))

/-- The low k bytes of x, lowest first (R56: little-endian). -/
def bytesOf (k : Nat) (x : BitVec n) : List Byte := (List.range k).map fun i => x.extractLsb' (8 * i) 8

/-- The little-endian number a byte list spells. -/
def natOfBytes : List Byte → Nat
  | [] => 0
  | b :: bs => b.toNat + 256 * natOfBytes bs

/-- The low k bytes of a number. -/
def bytesOfNat : Nat → Nat → List Byte
  | 0, _ => []
  | k + 1, x => BitVec.ofNat 8 x :: bytesOfNat k (x / 256)

/-- The number of 1 bits among the low k bits. -/
def popcount (k x : Nat) : Nat := ((List.range k).filter fun i => x.testBit i).length

/-- The positions of the 1 bits among the low k bits, rising. -/
def bitsOf (k x : Nat) : List Nat := (List.range k).filter fun i => x.testBit i

/-- Sign extension of a w-bit field to 32 bits. -/
def sx (x : BitVec w) : Word := x.signExtend 32

/-- Zero extension to 32 bits. -/
def zx (x : BitVec w) : Word := x.setWidth 32

/-- A count that holds at its largest value 2^w − 1. -/
def satAdd (x : BitVec w) (n : Nat) : BitVec w :=
  if x.toNat + n ≥ 2 ^ w then BitVec.allOnes w else BitVec.ofNat w (x.toNat + n)

/-- The first element that satisfies p, with its place. -/
def findIdxOpt (p : α → Bool) : List α → Nat → Option (Nat × α)
  | [], _ => none
  | x :: xs, i => if p x then some (i, x) else findIdxOpt p xs (i + 1)

/-- The list without its i-th element. -/
def dropAt : List α → Nat → List α
  | [], _ => []
  | _ :: xs, 0 => xs
  | x :: xs, i + 1 => x :: dropAt xs i

/-- The list with f applied to its i-th element. -/
def modAt : List α → Nat → (α → α) → List α
  | [], _, _ => []
  | x :: xs, 0, f => f x :: xs
  | x :: xs, i + 1, f => x :: modAt xs i f

end Sys2Proof.Machine
end

