-- ==== Sys2Proof/Machine/Flags.lean ====
section
/-! DEFINITION. Conditions, flags and the scalar ALU (R58, R60, R68 to R70, Tables 03.3, 03.4). Flags stand as in SFLAGS:
N bit 3, Z bit 2, C bit 1, V bit 0. -/
namespace Sys2Proof.Machine

/-- The flag word of N, Z, C, V. -/
def mkFlags (n z c v : Bool) : BitVec 4 := BitVec.ofNat 4 (8 * b2n n + 4 * b2n z + 2 * b2n c + b2n v)
/-- N. -/
def flagN (x : BitVec 4) : Bool := x.getLsbD 3
/-- Z. -/
def flagZ (x : BitVec 4) : Bool := x.getLsbD 2
/-- C. -/
def flagC (x : BitVec 4) : Bool := x.getLsbD 1
/-- V. -/
def flagV (x : BitVec 4) : Bool := x.getLsbD 0

/-- Whether condition code k holds of the flags (Table 03.3); code 15, reserved, never. -/
def condHolds (k : BitVec 4) (f : BitVec 4) : Bool :=
  match k.toNat with
  | 0 => true
  | 1 => flagZ f
  | 2 => !flagZ f
  | 3 => flagN f != flagV f
  | 4 => flagN f == flagV f
  | 5 => flagZ f || (flagN f != flagV f)
  | 6 => !flagZ f && (flagN f == flagV f)
  | 7 => flagC f
  | 8 => !flagC f
  | 9 => flagC f || flagZ f
  | 10 => !flagC f && !flagZ f
  | 11 => flagN f
  | 12 => !flagN f
  | 13 => flagV f
  | 14 => !flagV f
  | _ => false

/-- Flags of a + b + cin with the 32-bit result r (Table 03.4). -/
def addFlags (a b : Word) (cin : Bool) (r : Word) : BitVec 4 :=
  mkFlags r.msb (r == 0) (decide (2 ^ 32 ≤ a.toNat + b.toNat + b2n cin))
    (decide (a.toInt + b.toInt + b2n cin ≠ r.toInt))

/-- Flags of a − b − bin with the 32-bit result r: C is the borrow (Table 03.4). -/
def subFlags (a b : Word) (bin : Bool) (r : Word) : BitVec 4 :=
  mkFlags r.msb (r == 0) (decide (a.toNat < b.toNat + b2n bin))
    (decide (a.toInt - b.toInt - b2n bin ≠ r.toInt))

/-- Flags of a logical, shift, multiply or comparison result: C and V unchanged (Table 03.4). -/
def logicFlags (old : BitVec 4) (r : Word) : BitVec 4 := mkFlags r.msb (r == 0) (flagC old) (flagV old)

/-- The result of an ALU function (R60, R68). -/
def aluResult (f : Alu) (flags : BitVec 4) (a b : Word) : Word :=
  match f with
  | .add => a + b
  | .adc => a + b + BitVec.ofNat 32 (b2n (flagC flags))
  | .sub => a - b
  | .sbc => a - b - BitVec.ofNat 32 (b2n (flagC flags))
  | .and => a &&& b
  | .or => a ||| b
  | .xor => a ^^^ b
  | .andn => a &&& ~~~b
  | .shl => a <<< (fldN b 0 6)
  | .shr => a >>> (fldN b 0 6)
  | .sar => a.sshiftRight (fldN b 0 6)
  | .ror => a.rotateRight (fldN b 0 5)
  | .mul => a * b
  | .mulhs => BitVec.ofInt 32 ((a.toInt * b.toInt) / 2 ^ 32)
  | .mulhu => BitVec.ofNat 32 ((a.toNat * b.toNat) / 2 ^ 32)
  | .min => if a.toInt ≤ b.toInt then a else b
  | .max => if a.toInt ≤ b.toInt then b else a
  | .minu => if a.toNat ≤ b.toNat then a else b
  | .maxu => if a.toNat ≤ b.toNat then b else a

/-- The flags after an ALU function with S = 1 (Table 03.4). -/
def aluFlags (f : Alu) (flags : BitVec 4) (a b r : Word) : BitVec 4 :=
  match f with
  | .add => addFlags a b false r
  | .adc => addFlags a b (flagC flags) r
  | .sub => subFlags a b false r
  | .sbc => subFlags a b (flagC flags) r
  | _ => logicFlags flags r

/-- IMM11 as an operand: sign-extended by ADDI, zero-extended by ANDI, ORI and XORI (R68). -/
def aluImmediate (f : Alu) (imm : BitVec 11) : Word :=
  match f with
  | .add => imm.signExtend 32
  | _ => imm.setWidth 32

/-- The immediate shifts by KIND (R68). -/
def shiftImmResult (kind : BitVec 2) (a : Word) (n : Nat) : Word :=
  match kind.toNat with
  | 0 => a <<< n
  | 1 => a >>> n
  | 2 => a.sshiftRight n
  | _ => a.rotateRight n

/-- CLZ (R70). -/
def clzResult (a : Word) : Word := BitVec.ofNat 32 (if a = 0 then 32 else 31 - Nat.log2 a.toNat)

/-- BPERM: source bytes 0–3 from Ga and 4–7 from the old Gd, selected by the nibbles of Gb (R70). -/
def bpermResult (a old b : Word) : Word :=
  let src : BitVec 64 := old ++ a
  ofLanes 32 8 4 fun k =>
    let nib := fldN b (4 * k) 4
    if nib ≥ 8 then 0 else lane 8 src nib

/-- BFI: bits [pos + width − 1 : pos] of old replaced by the low bits of a (R69). -/
def bfiResult (old a : Word) (pos width : Nat) : Word := setFld old pos width a.toNat

/-- BFX: a field of a, zero- or sign-extended (R69). -/
def bfxResult (a : Word) (pos width : Nat) (sgn : Bool) : Word :=
  let x := a.toNat / 2 ^ pos % 2 ^ width
  if sgn && decide (2 ^ (width - 1) ≤ x) then BitVec.ofInt 32 ((x : Int) - 2 ^ width) else BitVec.ofNat 32 x

end Sys2Proof.Machine
end

