-- ==== Sys2Proof/Machine/Sparse.lean ====
section
/-! DEFINITION. Reading and writing a sparse table: an unlisted number holds the default, keys rise, and no listed
entry equals the default, so that equal tables are equal data. -/
namespace Sys2Proof.Machine

variable {α : Type}

/-- The entry of number k; d where none is listed. -/
def sget (d : α) : Sparse α → Nat → α
  | [], _ => d
  | (k, v) :: m, n => if k = n then v else sget d m n

/-- The table without number n. -/
def sdel : Sparse α → Nat → Sparse α
  | [], _ => []
  | (k, v) :: m, n => if k = n then sdel m n else (k, v) :: sdel m n

/-- The table with (n, v) put before the first larger key. -/
def sins (n : Nat) (v : α) : Sparse α → Sparse α
  | [] => [(n, v)]
  | (k, w) :: m => if n < k then (n, v) :: (k, w) :: m else (k, w) :: sins n v m

/-- The table in which number n holds v. -/
def sset [DecidableEq α] (d : α) (m : Sparse α) (n : Nat) (v : α) : Sparse α :=
  if v = d then sdel m n else sins n v (sdel m n)

/-- The table with f applied to the entry of number n. -/
def smod [DecidableEq α] (d : α) (m : Sparse α) (n : Nat) (f : α → α) : Sparse α :=
  sset d m n (f (sget d m n))

/-- Keys above lo, strictly rising, no entry equal to the default. -/
def swfFrom [DecidableEq α] (d : α) : Nat → Sparse α → Bool
  | _, [] => true
  | lo, (k, v) :: m => decide (lo ≤ k) && !decide (v = d) && swfFrom d (k + 1) m

/-- The canonical form of a table. -/
def swf [DecidableEq α] (d : α) (m : Sparse α) : Bool := swfFrom d 0 m

/-- The table with the entries of the numbers in [lo, lo + n) removed: they hold the default again. -/
def sclear : Sparse α → Nat → Nat → Sparse α
  | [], _, _ => []
  | (k, v) :: m, lo, n => if lo ≤ k ∧ k < lo + n then sclear m lo n else (k, v) :: sclear m lo n

end Sys2Proof.Machine
end

