-- ==== Sys2Proof/Machine/Operands.lean ====
section
/-! DEFINITION. Operand forms: the registers of a thread, capabilities, addresses and address generators (R55, R65 to R67, R72,
R96 to R98). -/
namespace Sys2Proof.Machine

/-- Gi; G0 reads as zero (Table 03.1). -/
def Thread.rg (th : Thread) (i : BitVec 5) : Word := if i = 0 then 0 else sget 0 th.g i.toNat
/-- The thread with Gi written; writes to G0 are discarded (Table 03.1). -/
def Thread.wg (th : Thread) (i : BitVec 5) (x : Word) : Thread :=
  if i = 0 then th else { th with g := sset 0 th.g i.toNat x }
/-- Vi. -/
def Thread.rv (th : Thread) (i : BitVec 5) : BitVec 512 := sget 0 th.v i.toNat
/-- The thread with Vi written. -/
def Thread.wv (th : Thread) (i : BitVec 5) (x : BitVec 512) : Thread := { th with v := sset 0 th.v i.toNat x }
/-- Ci. -/
def Thread.rc (th : Thread) (i : BitVec 4) : Cap := sget {} th.c i.toNat
/-- The thread with Ci written. -/
def Thread.wc (th : Thread) (i : BitVec 4) (x : Cap) : Thread := { th with c := sset {} th.c i.toNat x }
/-- AGi. -/
def Thread.rag (th : Thread) (i : BitVec 2) : AGen := sget {} th.ag i.toNat
/-- The thread with AGi written. -/
def Thread.wag (th : Thread) (i : BitVec 2) (x : AGen) : Thread := { th with ag := sset {} th.ag i.toNat x }

/-- KIND of a capability (Table 05.1). -/
def Cap.kind (c : Cap) : Nat := fldN c.bits 124 4
/-- PERM. -/
def Cap.perm (c : Cap) : BitVec 12 := fld c.bits 112 12
/-- BASE. -/
def Cap.base (c : Cap) : Nat := fldN c.bits 64 48
/-- LENGTH. -/
def Cap.len (c : Cap) : Nat := fldN c.bits 16 48
/-- SEAL. -/
def Cap.sealWord (c : Cap) : BitVec 16 := fld c.bits 0 16
/-- The seal slot of a seal word (R103). -/
def Cap.sealSlot (c : Cap) : Nat := fldN c.bits 11 5
/-- The generation of a seal word (R103). -/
def Cap.sealGen (c : Cap) : Nat := fldN c.bits 0 11
/-- A tagged capability of the given fields. -/
def mkCap (kind perm base len sw : Nat) : Cap :=
  ⟨true, BitVec.ofNat 4 kind ++ BitVec.ofNat 12 perm ++ BitVec.ofNat 48 base ++ BitVec.ofNat 48 len ++ BitVec.ofNat 16 sw⟩

/-- The used bits of BASE that the limit names, by kind (Table 05.2): 0 for a kind that carries no tag. -/
def kindBits : Nat → Nat
  | 1 => 17 | 2 => 17 | 3 => 5 | 4 => 6 | 5 => 41 | 6 => 48 | 7 => 12 | 8 => 10 | 9 => 5 | _ => 0

/-- The limit on BASE + LENGTH, by kind (Table 05.2). -/
def kindLimit : Nat → Nat
  | 1 => 2 ^ 17 | 2 => 2 ^ 17 | 3 => 32 | 4 => 64 | 5 => 2 ^ 41 | 6 => 2 ^ 48 | 7 => 2 ^ 12 | 8 => 750 | 9 => 32 | _ => 0

/-- The PERM bits that Table 05.3 applies to a kind (R98). -/
def kindPerm : Nat → Nat
  | 1 => 0b11111 | 2 => 0b10 | 3 => 0b1100000 | 4 => 0b1100001 | 5 => 0b11 | 6 => 0b11 | 7 => 0b10000000
  | 8 => 0b10000011 | 9 => 0xFFF | _ => 0

/-- BASE on the bits that the kind's limit names. -/
def Cap.ubase (c : Cap) : Nat := c.base % 2 ^ kindBits c.kind

/-- BASE bits that Table 05.2 does not use for the kind are zero (R97); RSPAD's target word and window are used. -/
def Cap.unusedZero (c : Cap) : Bool :=
  if c.kind = 2 then decide (fldN c.bits 81 9 = 0) else decide (c.base < 2 ^ kindBits c.kind)

/-- BASE and BASE + LENGTH within the limit (R97). -/
def Cap.inLimit (c : Cap) : Bool :=
  decide (c.ubase < kindLimit c.kind) && decide (c.ubase + c.len ≤ kindLimit c.kind)

/-- REASON codes of Table 05.8. -/
inductive CapReason where
  | untagged | kind | perm | bounds | align | sealedCap | noCredit | notDerivable | slot | narrow | stale
  deriving DecidableEq, Repr

/-- The code of a reason (Table 05.8). -/
def CapReason.code : CapReason → Nat
  | .untagged => 1 | .kind => 2 | .perm => 3 | .bounds => 4 | .align => 5 | .sealedCap => 6 | .noCredit => 7
  | .notDerivable => 8 | .slot => 9 | .narrow => 10 | .stale => 11

/-- SINFO of cause 3 (Table 05.8). -/
def capSinfo (r : CapReason) (creg : Nat) (fetch unbound : Bool) : Word :=
  BitVec.ofNat 32 (r.code + 16 * creg + 256 * b2n fetch + 512 * b2n unbound)

/-- Cause 3 at pc with the capability checked. -/
def capFault (pc : BitVec 17) (r : CapReason) (creg : BitVec 4) (cap : Cap) (saddr : Word) : FaultRec :=
  { cause := 3, spc := pc, sinfo := capSinfo r creg.toNat false false, saddr := saddr, scap := cap }

/-- Tag, kind and seal, then permission, in the order of R64 and R98: the first failing reason. -/
def capUse (c : Cap) (kind : Nat) (need : BitVec 12) : Option CapReason :=
  if !c.tag then some .untagged
  else if c.kind ≠ kind then some .kind
  else if c.sealWord ≠ 0 then some .sealedCap
  else if c.perm &&& need ≠ need then some .perm
  else none

/-- The checks of an SPAD access: capUse, then bounds, then alignment (R64, R67). -/
def spadCheck (c : Cap) (need : BitVec 12) (addr : Int) (size align : Nat) : Option CapReason :=
  match capUse c 1 need with
  | some r => some r
  | none =>
    if addr < c.ubase ∨ (c.ubase : Int) + c.len < addr + size then some .bounds
    else if addr % align ≠ 0 then some .align
    else none

/-- SADDR of a reason: the address, or its offset, for BOUNDS and ALIGN, otherwise 0 (Table 05.8). -/
def saddrOf (r : CapReason) (addr : Int) : Word :=
  match r with
  | .bounds => BitVec.ofInt 32 addr
  | .align => BitVec.ofInt 32 addr
  | _ => 0

/-- Bytes of an access SIZE (Table 03.6). -/
def sizeBytes (size : BitVec 3) : Nat :=
  match size.toNat with
  | 0 => 1 | 1 => 1 | 2 => 2 | 3 => 2 | 4 => 4 | _ => 64

/-- The word a scalar load writes (Table 03.6). -/
def loadResult (size : BitVec 3) (bytes : List Byte) : Word :=
  let x := natOfBytes bytes
  match size.toNat with
  | 0 => (BitVec.ofNat 8 x).signExtend 32
  | 1 => BitVec.ofNat 32 x
  | 2 => (BitVec.ofNat 16 x).signExtend 32
  | _ => BitVec.ofNat 32 x

/-- C.BASE + Ga + IMM5 × size, Ga signed: chapter 03 says of no load or store that it reads Ga as unsigned (chapter 02, R72, log 22). -/
def regAddress (c : Cap) (ga : Word) (imm : BitVec 5) (size : BitVec 3) : Int :=
  c.ubase + ga.toInt + imm.toInt * sizeBytes size

/-- The low n bits of x in reverse order. -/
def bitrev : Nat → Nat → Nat
  | 0, _ => 0
  | n + 1, x => (x % 2) * 2 ^ n + bitrev n (x / 2)

/-- Whether MODULUS is a power of two from 2 to 2^16 (R67). -/
def AGen.pow2 (a : AGen) : Bool :=
  decide (2 ≤ a.modulus.toNat ∧ a.modulus.toNat ≤ 2 ^ 16) && decide (a.modulus &&& (a.modulus - 1) = 0)

/-- The address of an access through a generator (R66). -/
def AGen.address (a : AGen) : Int :=
  match a.mode.toNat with
  | 2 =>
    let n := Nat.log2 a.modulus.toNat
    a.base.toNat + bitrev n (a.index.toNat % 2 ^ n) * a.step.toInt
  | _ => a.base.toNat + a.index.toNat

/-- The post-modified generator, stepping by d; in bit-reversed mode by e elements (R66). -/
def AGen.post (a : AGen) (d e : Int) : AGen :=
  match a.mode.toNat with
  | 1 => { a with index := BitVec.ofInt 17 ((a.index.toNat + d) % (a.modulus.toNat : Int)) }
  | 2 => { a with index := BitVec.ofInt 17 ((a.index.toNat + e) % (a.modulus.toNat : Int)) }
  | _ => { a with index := BitVec.ofInt 17 (a.index.toNat + d) }

/-- The post-modify of an access (R66). -/
def AGen.step1 (a : AGen) : AGen := a.post a.step.toInt 1

/-- The addresses of n accesses through a generator, from its next one, post-modifying where p is set. -/
def agAddrs (p : Bool) : Nat → AGen → List Nat
  | 0, _ => []
  | n + 1, a => a.address.toNat :: agAddrs p n (if p then a.step1 else a)

/-- Whether an access through the generator is an illegal instruction (R67): a MODULUS that is not valid, or the reserved
MODE 3. -/
def AGen.illegal (a : AGen) (p : Bool) : Bool :=
  match a.mode.toNat with
  | 0 => false
  | 1 => p && decide (a.modulus = 0)
  | 2 => !a.pow2
  | _ => true

/-- The capability an access through a generator is checked against, its C register, and whether the generator is unbound (R67). -/
def Thread.agCap (th : Thread) (a : AGen) : Cap × BitVec 4 × Bool :=
  match a.cap with
  | none => ({}, 0, true)
  | some i => (th.rc i, i, false)

/-- Cause 3 of an access through a generator (R67). -/
def agFault (th : Thread) (a : AGen) (r : CapReason) (addr : Int) : FaultRec :=
  let (cap, creg, unb) := th.agCap a
  { cause := 3, spc := th.pc, sinfo := capSinfo r creg.toNat false unb, saddr := saddrOf r addr, scap := cap }

/-- The check of an access of size bytes through a generator (R67): UNTAGGED when unbound. -/
def Thread.agCheck (th : Thread) (a : AGen) (need : BitVec 12) (size align : Nat) : Option FaultRec :=
  let (cap, _, _) := th.agCap a
  (spadCheck cap need a.address size align).map fun r => agFault th a r a.address

/-- min(size, 16): the alignment of R67. -/
def alignOf (size : Nat) : Nat := min size 16

/-- Permission RD of SPAD, DMEM, HMEM, CNTR, DBG (Table 05.3). -/
def permRD : BitVec 12 := 1
/-- Permission WR. -/
def permWR : BitVec 12 := 2
/-- Permission EX. -/
def permEX : BitVec 12 := 4
/-- Permission LDC. -/
def permLDC : BitVec 12 := 8
/-- Permission STC. -/
def permSTC : BitVec 12 := 16
/-- Permission SEND or INC. -/
def permSEND : BitVec 12 := 32
/-- Permission RECV or WAIT. -/
def permRECV : BitVec 12 := 64
/-- Permission CTL. -/
def permCTL : BitVec 12 := 128
/-- Permission STAMP. -/
def permSTAMP : BitVec 12 := 512
/-- Permission REDEEM. -/
def permREDEEM : BitVec 12 := 1024
/-- Permission REVOKE. -/
def permREVOKE : BitVec 12 := 2048

end Sys2Proof.Machine
end

