-- ==== Sys2Proof/Machine/Ops.lean ====
section
/-! DEFINITION. The named operations on a core: counters, scratchpad, stops, taking a cause, and issuing an instruction
(chapters 03 to 06, 21). -/
namespace Sys2Proof.Machine

/-! ## Threads and counters -/

/-- Thread t of the core. -/
def Core.th (c : Core) (t : Nat) : Thread := sget {} c.f.thr t
/-- The core with thread t replaced. -/
def Core.setTh (c : Core) (t : Nat) (x : Thread) : Core := { c with f := { c.f with thr := sset {} c.f.thr t x } }
/-- The core with f applied to thread t. -/
def Core.modTh (c : Core) (t : Nat) (f : Thread → Thread) : Core := c.setTh t (f (c.th t))
/-- The core with n added to counter i of its trunk, modulo 2^64 (R202). -/
def Core.bump (c : Core) (i n : Nat) : Core :=
  { c with t := { c.t with cnt := smod 0 c.t.cnt i (· + BitVec.ofNat 64 n) } }
/-- The core with a notice for its steward (R298). -/
def Core.notice (c : Core) (n : Notice) : Core := { c with t := { c.t with notices := c.t.notices ++ [n] } }
/-- The core with a packet waiting for its local port (R284). -/
def Core.sendPkt (c : Core) (p : Packet) : Core := { c with t := { c.t with outq := c.t.outq ++ [p] } }
/-- Whether thread t is enabled. -/
def Core.enabled (c : Core) (t : Nat) : Bool := c.f.tc.en.getLsbD t

/-- Counter numbers: Table 08.6. -/
def cntSp (i : Nat) : Nat := i
/-- Counter numbers: Table 10.5. -/
def cntStand (i : Nat) : Nat := 32 + i
/-- Counter numbers: Table 11.3. -/
def cntChan (i : Nat) : Nat := 64 + i
/-- Counter numbers: Table 13.6. -/
def cntStr (i : Nat) : Nat := 96 + i
/-- Counter numbers: Table 21.5. -/
def cntPerf (i : Nat) : Nat := 128 + i

/-! ## Scratchpad -/

/-- The bank of an address (R120). -/
def bankOf (a : Nat) : Nat := (a / 16 % 16) ^^^ (a / 256 % 16) ^^^ (a / 4096 % 16)
/-- The 8-byte words that [a, a + n) touches. -/
def wordsOf (a n : Nat) : List Nat :=
  if n = 0 then [] else (List.range ((a + n - 1) / 8 - a / 8 + 1)).map (· + a / 8)
/-- The 16-byte granules that [a, a + n) touches. -/
def granulesOf (a n : Nat) : List Nat :=
  if n = 0 then [] else (List.range ((a + n - 1) / 16 - a / 16 + 1)).map (· + a / 16)
/-- n bytes from address a. -/
def readBytes (m : Sparse Byte) (a : Nat) : Nat → List Byte
  | 0 => []
  | n + 1 => sget 0 m a :: readBytes m (a + 1) n
/-- A byte list written from address a. -/
def writeBytes (m : Sparse Byte) (a : Nat) : List Byte → Sparse Byte
  | [] => m
  | b :: bs => writeBytes (sset 0 m a b) (a + 1) bs

/-- An uncorrectable word found: counted and recorded (R129, Table 06.5). -/
def Spad.noteUe (sp : Spad) (w : Nat) : Spad :=
  { sp with ue := satAdd sp.ue 1, errAddr := BitVec.ofNat 32 (w * 8 + 2 ^ 31) }
/-- A correctable word found: counted and recorded once before its write-back (R126). -/
def Spad.noteCe (sp : Spad) (w : Nat) : Spad :=
  if w ∈ sp.wb then sp
  else { sp with ce := satAdd sp.ce 1, errAddr := BitVec.ofNat 32 (w * 8), wb := sp.wb ++ [w] }
/-- The effect of reading words: every correctable one is noted (R126). -/
def Spad.touch (sp : Spad) : List Nat → Spad
  | [] => sp
  | w :: ws => (if sget 0 sp.err w = 1 then sp.noteCe w else sp).touch ws
/-- The first uncorrectable word among some. -/
def Spad.firstUe (sp : Spad) (ws : List Nat) : Option Nat := ws.find? fun w => decide (sget 0 sp.err w = 2)
/-- Words written whole: errors and pending write-backs cleared (R126, R128). -/
def Spad.cleanWords (sp : Spad) (ws : List Nat) : Spad :=
  { sp with err := ws.foldl (fun e w => sset 0 e w 0) sp.err, wb := sp.wb.filter fun w => !decide (w ∈ ws) }
/-- Bytes stored, the touched granules' tags cleared (R99). -/
def Spad.put (sp : Spad) (a : Nat) (bs : List Byte) : Spad :=
  { sp with
    mem := writeBytes sp.mem a bs,
    tags := (granulesOf a bs.length).foldl (fun t g => sset false t g false) sp.tags,
    tagBad := (granulesOf a bs.length).foldl (fun t g => sset false t g false) sp.tagBad }
/-- The words that [a, a + n) covers only in part. -/
def partWords (a n : Nat) : List Nat := (wordsOf a n).filter fun w => !decide (a ≤ 8 * w ∧ 8 * w + 8 ≤ a + n)

/-- The effect of reading words of which some are uncorrectable: each of these is counted and sends a notice, each correctable one is
noted (R126, R129). -/
def Core.noteWords (c : Core) : List Nat → Core
  | [] => c
  | w :: ws =>
    (if sget 0 c.f.spad.err w = 2 then
      ({ c with f := { c.f with spad := c.f.spad.noteUe w } } : Core).notice (.spadUe (8 * w))
    else { c with f := { c.f with spad := c.f.spad.touch [w] } }).noteWords ws

/-- A read of n bytes: the first uncorrectable word, every erroneous word noted, or the bytes (R126, R127, R129). -/
def Core.readSpad (c : Core) (a n : Nat) : Option Nat × List Byte × Core :=
  match c.f.spad.firstUe (wordsOf a n) with
  | some w => (some w, [], c.noteWords (wordsOf a n))
  | none => (none, readBytes c.f.spad.mem a n, { c with f := { c.f with spad := c.f.spad.touch (wordsOf a n) } })

/-- The lines held for a conflict, discarded where a write touches one of them (R122). -/
def Conflict.keep (a n : Nat) (x : Conflict) : Option Conflict :=
  if x.lines.any fun l => decide (l ∈ granulesOf a n) then none else some x

/-- A write of bytes: an uncorrectable word that would be merged stops it, nothing written; otherwise stored with fresh check
bits (R128). -/
def Core.writeSpad (c : Core) (a : Nat) (bs : List Byte) : Option Nat × Core :=
  match c.f.spad.firstUe (partWords a bs.length) with
  | some w => (some w, c.noteWords (partWords a bs.length))
  | none =>
    let sp := ((c.f.spad.touch (partWords a bs.length)).cleanWords (wordsOf a bs.length)).put a bs
    (none, { c with f := { c.f with spad := sp, conf := c.f.conf.bind (Conflict.keep a bs.length) } })

/-! ## Tracked ranges -/

/-- Whether two byte ranges share a 16-byte line (R134). -/
def linesMeet (a n b m : Nat) : Bool :=
  decide (n ≠ 0 ∧ m ≠ 0 ∧ a / 16 ≤ (b + m - 1) / 16 ∧ b / 16 ≤ (a + n - 1) / 16)

/-- The address of slot s of a stream's ring (R313). -/
def Stream.slotAddr (x : Stream) (j : Nat) : Nat := x.cr.ubase + (j % x.slots) * 64 * x.chunk

/-- The offset of chunk j from CM.BASE (R315). -/
def Stream.chunkOff (x : Stream) (j : Nat) : Nat := x.off + j / x.inner * 64 * x.outer + j % x.inner * 64 * x.chunk

/-- The address of chunk j (R315). -/
def Stream.chunkAddr (x : Stream) (j : Nat) : Nat := x.cm.ubase + x.chunkOff j

/-- The requests of chunk j: two where it crosses a 4 KiB boundary (R315): offset within the chunk, length. -/
def Stream.parts (x : Stream) (j : Nat) : List (Nat × Nat) :=
  let a := x.chunkAddr j
  let n := 64 * x.chunk
  let room := 4096 - a % 4096
  if n ≤ room then [(0, n)] else [(0, room), (room, n - room)]

/-- Part p of chunk j. -/
def Stream.part (x : Stream) (j p : Nat) : Nat × Nat := (x.parts j).getD p (0, 0)

/-- Whether an open read stream tracks a range: lines that issued requests will write and that have not landed (R134, R316). -/
def Stream.tracks (x : Stream) (a n : Nat) : Bool :=
  decide (x.st = 1 ∨ x.st = 3) && !x.dir
    && x.out.any fun r => linesMeet (x.slotAddr r.chunk + (x.part r.chunk r.part).1) (x.part r.chunk r.part).2 a n

/-- Whether a core-side access meets a tracked range in a way Table 06.3 lists. -/
def Core.rangeHeld (c : Core) (a n : Nat) (write : Bool) : Bool :=
  (List.range 4).any (fun i => (sget {} c.f.str i).tracks a n)
  || c.f.dmaRange.any (fun r => (r.dst || write) && linesMeet r.base r.len a n)
  || (c.f.run.toList ++ c.f.mv.toList).any fun r => r.lines.any fun (b, m, rd) => (rd || write) && linesMeet b m a n

/-! ## Results of an operation -/

/-- What an instruction's operation gave: done (PC + 4 follows), issued and in progress (R114), done with the PC set by a branch or by
RFE, cannot proceed in a STATE of Table 04.1 (wait: with an effect of its waiting, R149), a synchronous cause, or a watchpoint stop
(index, address). -/
inductive Res (α : Type) where
  | ok (x : α)
  | going (x : α)
  | jump (x : α)
  | ret (x : α)
  | hold (state : Nat)
  | wait (x : α) (state : Nat)
  | fault (x : α) (f : FaultRec)
  | watch (x : α) (j : Nat) (addr : Word)
  deriving Repr

/-- Illegal instruction: cause 2 with the instruction word (Table 05.7). -/
def illegalAt (pc : BitVec 17) (word : Word) : FaultRec := { cause := 2, spc := pc, sinfo := word }
/-- Cause 4 for a scratchpad word (R127). -/
def ueFault (pc : BitVec 17) (w : Nat) : FaultRec :=
  { cause := 4, spc := pc, sinfo := BitVec.ofNat 32 (bankOf (8 * w)), saddr := BitVec.ofNat 32 (8 * w) }

/-- The watchpoint that a data access of thread t matches (R492). -/
def Core.watchpoint (c : Core) (t a n : Nat) (write : Bool) : Option Nat :=
  if (c.th t).skipBp then none
  else [0, 1].find? fun j =>
    let ctl := sget 0 c.f.dbg.wpCtl j
    let lo := (sget 0 c.f.dbg.wpBase j).toNat
    bitOf ctl 21 && bitOf ctl (17 + t) && (if write then bitOf ctl 16 else bitOf ctl 15)
      && decide (a < lo + 8 * fldN ctl 0 15 ∧ lo < a + n)

/-- UNIT because of a tracked range (R134): the state code is its remainder by 16. -/
def unitRange : Nat := 23

/-- What a read gave: its bytes, or the stop of the instruction. -/
inductive Got where
  | got (bs : List Byte) (c : Core)
  | stop (r : Res Core)

/-- A load of n bytes by thread t after its checks: held by a tracked range, stopped by a watchpoint, cause 4, or the bytes. -/
def Core.loadGot (c : Core) (t : Nat) (a n : Nat) : Got :=
  if c.rangeHeld a n false then .stop (.hold unitRange)
  else match c.watchpoint t a n false with
    | some j => .stop (.watch c j (BitVec.ofNat 32 a))
    | none =>
      match c.readSpad a n with
      | (some w, _, c') => .stop (.fault c' (ueFault (c.th t).pc w))
      | (none, bs, c') => .got bs c'

/-- A load whose bytes k takes. -/
def Core.load (c : Core) (t : Nat) (a n : Nat) (k : List Byte → Core → Res Core) : Res Core :=
  match c.loadGot t a n with
  | .stop r => r
  | .got bs c' => k bs c'

/-- A store by thread t after its checks. -/
def Core.store (c : Core) (t : Nat) (a : Nat) (bs : List Byte) (k : Core → Res Core) : Res Core :=
  if c.rangeHeld a bs.length true then .hold unitRange
  else match c.watchpoint t a bs.length true with
    | some j => .watch c j (BitVec.ofNat 32 a)
    | none =>
      match c.writeSpad a bs with
      | (some w, c') => .fault c' (ueFault (c.th t).pc w)
      | (none, c') => k c'

/-- What an instruction's operation takes from outside its core: the core's own word, the instruction word, whether a
resumable stream may be opened (R314), whether its checker's buffer is free (R169), and whether a resumable instruction does all its
units in this step, as a row of its own does, or one die cycle's (log 16). -/
structure Env where
  w : Nat
  word : Word
  resumable : Bool
  checkFree : Bool
  whole : Bool
  closed : List Nat := []
  deriving DecidableEq, Repr

/-- An operation that only changes thread t's registers. -/
def Core.thOp (c : Core) (t : Nat) (f : Thread → Thread) : Res Core := .ok (c.modTh t f)

/-- Illegal instruction of thread t because of the state it finds (R64, step 3). -/
def Core.illegal (c : Core) (e : Env) (t : Nat) : Res Core := .fault c (illegalAt (c.th t).pc e.word)

/-! ## Trace and stops -/

/-- A trace entry written in issue order (R495). -/
def Core.traceAdd (c : Core) (t : Nat) (pc : BitVec 17) (kind : Nat) : Core :=
  if c.t.traceFrozen ∨ c.f.dbg.traceThr.getLsbD t = false then c
  else if c.f.dbg.traceWrap = false ∧ c.t.traceFull then c
  else
    let e : DWord := BitVec.ofNat 32 c.t.cyc.toNat ++ BitVec.ofNat 32 (pc.toNat + 2 ^ 17 * t + 2 ^ 19 * kind)
    let full := decide (255 ≤ c.t.traceCnt.toNat)
    let c' := { c with
      f := { c.f with dbg := { c.f.dbg with trace := sset 0 c.f.dbg.trace c.t.traceNext.toNat e } }
      t := { c.t with traceNext := c.t.traceNext + 1, traceCnt := if c.t.traceCnt = 256 then 256 else c.t.traceCnt + 1,
                      traceFull := full } }
    if full && !c.t.traceFull && !c.f.dbg.traceWrap && c.t.ringEn then c'.notice .traceFull else c'

/-- The trace of an issue, by MODE (R495): MODE 1 every issue, MODE 2 taken branches (1), entries (2) and RFEs (3). -/
def Core.traceIssue (c : Core) (t : Nat) (pc : BitVec 17) (kind : Nat) : Core :=
  match c.f.dbg.traceMode.toNat with
  | 1 => if kind = 2 then c else c.traceAdd t pc 0
  | 2 => if kind = 0 then c else c.traceAdd t pc kind
  | _ => c

/-- An asynchronous cause raised: its pending bit set, SINFO and SADDR those of the last occurrence (R111). -/
def Core.raiseAsync (c : Core) (cause : Nat) (sinfo saddr : Word) : Core :=
  { c with f := { c.f with exc := { c.f.exc with
    pend := c.f.exc.pend ||| BitVec.ofNat 16 (2 ^ cause)
    pinfo := sset 0 c.f.exc.pinfo cause sinfo
    paddr := sset 0 c.f.exc.paddr cause saddr } } }

/-- A progress register as the word SPROG (Table 05.9). -/
def Prog.word (p : Prog) : Word := BitVec.ofNat 32 (p.progress.toNat + 2 ^ 16 * p.unit.toNat + 2 ^ 31 * b2n p.valid)
/-- The progress register a word SPROG spells (Table 05.9). -/
def progOfWord (x : Word) : Prog := ⟨fld x 0 16, fld x 16 4, bitOf x 31⟩

/-- The thread STOPPED for a reason (R482, R485). -/
def Thread.stopped (th : Thread) (reason : Nat) : Thread := { th with stop := BitVec.ofNat 4 reason, stepping := false, skipBp := false }

/-- Whether a resumable instruction of thread t is in progress, not stopped: the thread issues nothing else (R114). -/
def Core.running (c : Core) (t : Nat) : Bool :=
  (c.f.run.toList ++ c.f.mv.toList).any fun r => !r.stopped && decide (r.thread.toNat = t)

/-- The map byte of an unfinished group that a stopping VDELTA writes: where AG3 points, the bits of its completed blocks (R215). -/
def Core.stopMap (c : Core) (t : Nat) (r : Running) : Core :=
  let b := (c.th t).prog.progress.toNat
  match r.map with
  | some m =>
    if r.due || decide (b % 8 = 0) then c
    else (c.writeSpad ((c.th t).rag 3).address.toNat [BitVec.ofNat 8 (m % 2 ^ (b % 8))]).2
  | none => c

/-- A VROUTE or VDELTA of thread t in progress, stopped at the point it has reached (R193, R215). -/
def Core.stopRoute (c : Core) (t : Nat) : Core :=
  match c.f.run with
  | some r =>
    if r.thread.toNat = t ∧ r.stopped = false then
      let c1 := c.stopMap t r
      { c1 with f := { c1.f with run := some { r with stopped := true, wait := 0, spent := 0 } } }
    else c
  | none => c

/-- A TLD or TST of thread t in progress, stopped at a row boundary: it is no longer in progress, and a TLD leaves its tile PARTIAL
(R154, R155). -/
def Core.stopMove (c : Core) (t : Nat) : Core :=
  match c.f.mv with
  | some r =>
    if r.thread.toNat = t then
      let mx := match r.op with
        | .tld tile _ _ =>
          { c.f.mx with tiles := smod {} c.f.mx.tiles tile.toNat fun x =>
              { x with part := some (BitVec.ofNat 4 (c.th t).prog.progress.toNat) } }
        | _ => c.f.mx
      { c with f := { c.f with mv := none, mx := mx } }
    else c
  | none => c

/-- The resumable instruction of thread t in progress, stopped with its thread (R114, R482). -/
def Core.stopRun (c : Core) (t : Nat) : Core := (c.stopRoute t).stopMove t

/-- The trace buffer frozen by a breakpoint or watchpoint with STOP (R495). -/
def Core.stopTrace (c : Core) (reason : Nat) : Core :=
  if (reason = 2 ∨ reason = 3) ∧ c.f.dbg.traceStop then { c with t := { c.t with traceFrozen := true } } else c

/-- Cause 11 of a stop with NOTIFY; an occurrence that finds it pending is merged (R493). -/
def Core.stopNotify (c : Core) (t reason index : Nat) (notify : Bool) (addr pc : Word) : Core :=
  if notify then
    let c' := if bitOf c.f.exc.pend 11
      then { c with f := { c.f with dbg := { c.f.dbg with merged := satAdd c.f.dbg.merged 1 } } } else c
    c'.raiseAsync 11 (BitVec.ofNat 32 (reason + 16 * t + 64 * index)) (if reason = 3 then addr else pc)
  else c

/-- The debug record of a stop (R496). -/
def Core.stopRecord (c : Core) (th : Thread) (t reason index : Nat) (notify : Bool) (addr : Word) : Core :=
  if c.t.ringEn && (notify || decide (reason ≠ 1)) then
    c.notice (.dbgStop (BitVec.ofNat 4 reason) (BitVec.ofNat 2 t) (BitVec.ofNat 2 index) th.pc
      (if reason = 3 then addr else 0) th.prog.word)
  else c

/-- Thread t, between instructions, STOPPED for a reason (1 STOP, 2 BREAK, 3 WATCH, 4 STEP): DBG_STAT, cause 11 with NOTIFY, a debug
record with RING_EN (R482 to R485, R491 to R493, R496). -/
def Core.markStop (c : Core) (t reason index : Nat) (notify : Bool) (addr : Word) : Core :=
  let th := c.th t
  (((c.setTh t (th.stopped reason)).stopTrace reason).stopNotify t reason index notify addr (th.pc.setWidth 32)).stopRecord
    th t reason index notify addr

/-- Thread t STOPPED for a reason, with the resumable instruction that it has in progress (R114, R482). -/
def Core.stopThread (c : Core) (t reason index : Nat) (notify : Bool) (addr : Word) : Core :=
  (c.stopRun t).markStop t reason index notify addr

/-! ## Taking a cause -/

/-- The vector of cause n at level lvl (R108). -/
def vectorOf (lvl n : Nat) : BitVec 17 := BitVec.ofNat 17 (16 * (n - 1) + if lvl = 2 then 0x100 else 0)

/-- The thread at a new PC with its fetch buffer discarded, in BRANCH for two cycles (R62, R109). -/
def Thread.jumpTo (th : Thread) (pc : BitVec 17) : Thread :=
  { th with pc := pc, fbuf := [], bubble := 2, prog := {}, skipBp := false }

/-- Entry at level lvl of a cause whose target is thread tgt (R109). -/
def Core.enter (c : Core) (lvl tgt : Nat) (f : FaultRec) (async : Bool) : Core :=
  let e := c.f.exc
  let x := c.th tgt
  let s : SaveSet :=
    { occ := true, spc := f.spc, sflags := x.flags, cause := f.cause, thread := BitVec.ofNat 2 tgt
      fromLevel := if tgt = 0 then e.level else 0, async := async, sinfo := f.sinfo, saddr := f.saddr
      sprog := f.prog, scode := x.rc 15, scap := f.scap
      sretPc := if tgt = 0 then 0 else (c.th 0).pc
      sretFlags := if tgt = 0 then 0 else (c.th 0).flags
      sretProg := if tgt = 0 then {} else (c.th 0).prog
      sretCode := if tgt = 0 then {} else (c.th 0).rc 15 }
  let c1 := if tgt = 0 then c else c.modTh tgt fun y => { y with faultHeld := true, saveWait := none, prog := {} }
  let c2 := c1.stopRun 0
  let e' := if lvl = 2 then { c2.f.exc with l2 := s, level := 2 } else { c2.f.exc with l1 := s, level := 1 }
  let c3 : Core := { c2 with f := { c2.f with exc := e' } }
  let c4 := c3.modTh 0 fun y =>
    { ((y.jumpTo (vectorOf lvl f.cause.toNat)).wc 15 (sget {} e.slots (lvl - 1))) with prog := {} }
  let c5 := c4.traceIssue 0 (vectorOf lvl f.cause.toNat) 2
  if lvl = 2 then
    c5.notice (.l2 (BitVec.ofNat 9 (f.cause.toNat + 16 * tgt + 64 * (if tgt = 0 then e.level.toNat else 0)
      + 256 * b2n async)) f.sinfo)
  else c5

/-- A double fault (R112): nothing issues any more, and resumable instructions in progress stop. -/
def Core.doubleFault (c : Core) (t : Nat) : Core :=
  let c0 := [0, 1, 2, 3].foldl Core.stopRun c
  let c1 := ({ c0 with f := { c0.f with exc := { c0.f.exc with l2double := true } } } : Core).notice .l2double
  if c1.t.ringEn then
    c1.notice (.dbgStop 5 (BitVec.ofNat 2 t) 0 (c.th t).pc 0 (c.th t).prog.word)
  else c1

/-- Whether a thread is STOPPED; one that a STEP has released is not (R485). -/
def Thread.isStopped (th : Thread) : Bool := decide (th.stop ≠ 0) && !th.stepping

/-- Whether a thread of the core waits for the L1 set. -/
def Core.anyWaiting (c : Core) : Bool := [1, 2, 3].any fun t => (c.th t).saveWait.isSome

/-- Whether the L1 set is free for an entry: unoccupied, thread 0 neither at L2 nor STOPPED (R110). -/
def Core.l1Free (c : Core) : Bool :=
  !c.f.exc.l1.occ && !decide (c.f.exc.level = 2) && !(c.th 0).isStopped

/-- The asynchronous cause that enters now: the lowest pending one, while thread 0 can take it and the L2 set is free (R109, R111, R112,
R486). -/
def Core.asyncDue (c : Core) : Option Nat :=
  if c.enabled 0 && !c.f.exc.l2.occ && !c.f.exc.l2double && !(c.th 0).isStopped then
    (List.range 16).find? fun i => bitOf c.f.exc.pend i
  else none

/-- Whether a fault of threads 1 to 3 enters directly: the L1 set free, and no L2 entry due, which would go first (R110). -/
def Core.l1Open (c : Core) : Bool := c.l1Free && c.asyncDue.isNone

/-- The waiting fault that enters next: the lowest cause, then the lowest thread (R110). -/
def Core.nextWaiting (c : Core) : Option (Nat × FaultRec) :=
  [1, 2, 3].foldl (fun (best : Option (Nat × FaultRec)) t =>
    match (c.th t).saveWait, best with
    | some f, some (u, g) => if f.cause.toNat < g.cause.toNat then some (t, f) else some (u, g)
    | some f, none => some (t, f)
    | none, b => b) none

/-- The L1 entry of a fault of thread t; an entry that a stepping thread 0 meets ends its step (R486). -/
def Core.enterL1 (c : Core) (t : Nat) (f : FaultRec) : Core :=
  let x := c.enter 1 t f false
  if (c.th 0).stepping then x.markStop 0 4 0 false 0 else x

/-- A synchronous cause of thread t raised: L2 from thread 0, a double fault when the L2 set is occupied; a fault of threads 1 to 3 is
held in its thread (R91, R109, R110, R112). -/
def Core.post (c : Core) (t : Nat) (f : FaultRec) : Core :=
  if t = 0 then
    if c.f.exc.l2.occ then c.doubleFault 0 else c.enter 2 0 f false
  else c.modTh t fun y => { y with saveWait := some f }

/-- A synchronous cause of thread t, the only one of its die cycle: a fault of threads 1 to 3 enters directly where the L1 set is open
and no fault waits for it (R91, R109, R110, R112). -/
def Core.raise (c : Core) (t : Nat) (f : FaultRec) : Core :=
  if t ≠ 0 ∧ c.l1Open ∧ !c.anyWaiting then c.enterL1 t f else c.post t f

/-- The faults that threads 1 to 3 have raised in one die cycle that began in `before`: the one of lowest cause, then lowest thread,
enters directly where the L1 set is open, was free as the cycle began, and none waited (R110). -/
def Core.enterRaised (c before : Core) : Core :=
  if before.anyWaiting || !before.l1Free || !c.l1Open || c.f.exc.l2double then c
  else match c.nextWaiting with
    | some (t, f) => c.enterL1 t f
    | none => c

/-- A thread start: registers of R82, PC and capabilities of R105; thread 0 enters L1 with cause 1. -/
def Core.startThread (c : Core) (t : Nat) : Core :=
  let e := c.f.exc
  let old := c.th t
  let fresh : Thread := { started := true, cycHi := old.cycHi, kHi := old.kHi, relq := old.relq }
  if t = 0 then
    let th := ((fresh.wc 0 (sget {} e.slots 7)).wc 14 (sget {} e.slots 2)).wc 15 (sget {} e.slots 3)
    let c1 : Core := { (c.setTh 0 { th with pc := sget 0 e.startPc 0 }) with
      f := { (c.setTh 0 { th with pc := sget 0 e.startPc 0 }).f with exc := { e with level := 0 } } }
    c1.enter 1 0 { cause := 1, spc := sget 0 e.startPc 0 } false
  else
    let th := (fresh.wc 0 (sget {} e.slots (7 + t))).wc 15 (sget {} e.slots (3 + t))
    c.setTh t { th with pc := if t = 1 ∧ c.f.st.mode then 0 else sget 0 e.startPc t }

/-- Thread t disabled: its registers, fetch buffer and staging buffer are discarded (R95). -/
def Core.disableThread (c : Core) (t : Nat) : Core :=
  let old := c.th t
  let c1 := c.setTh t { relq := old.relq }
  let c2 : Core := { c1 with f := { c1.f with tc := { c1.f.tc with
    en := c1.f.tc.en &&& ~~~(BitVec.ofNat 4 (2 ^ t)) } } }
  { c2 with f := { c2.f with run := c2.f.run.filter fun r => !decide (r.thread.toNat = t),
                             mv := c2.f.mv.filter fun r => !decide (r.thread.toNat = t) } }

/-! ## Issuing an instruction -/

/-- The unit of a resumable instruction (Table 05.11); 0 for the others. -/
def opUnit : Op → Nat
  | .tld .. => 1
  | .tst .. => 2
  | .vroute .. => 3
  | .vdelta .. => 4
  | _ => 0

/-- Whether thread t may issue apart from latencies, its fetch buffer and the instruction's own waits (R87, R112, R114, R229). -/
def Core.canIssue (c : Core) (t : Nat) : Bool :=
  let th := c.th t
  c.enabled t && !c.f.exc.l2double && !th.isStopped && !th.faultHeld && th.saveWait.isNone && !c.running t
    && !(decide (t = 1) && c.f.st.mode && !th.firing)

/-- The breakpoint that an instruction of thread t at its PC matches (R491). -/
def Core.breakpoint (c : Core) (t : Nat) : Option Nat :=
  if (c.th t).skipBp then none
  else [0, 1, 2, 3].find? fun k =>
    let b := sget 0 c.f.dbg.bp k
    bitOf b 24 && bitOf b (17 + t) && decide (fld b 0 17 = (c.th t).pc)
      && (!bitOf b 23 || decide (fld b 21 2 = c.f.st.curCtx))

/-- An issue counted and traced (R74, R494, R495). -/
def Core.countIssue (c : Core) (t : Nat) (pc : BitVec 17) (kind : Nat) : Core :=
  (c.bump (cntPerf t) 1).traceIssue t pc kind

/-- The thread past an instruction that issued: the progress register and breakpoint exemption cleared (R115, R491). -/
def Thread.consume (th : Thread) : Thread := { th with prog := {}, skipBp := false }

/-- The thread past an instruction at its PC: PC + 4, the fetch buffer's head dropped. -/
def Thread.advance (th : Thread) : Thread := { th.consume with pc := th.pc + 4, fbuf := th.fbuf.drop 1 }

/-- A stepping thread stops again after its instruction (R485). -/
def Core.endStep (c : Core) (t : Nat) (was : Bool) : Core := if was then c.markStop t 4 0 false 0 else c

/-- The tokens that RT_TOKENS has counted of the VROUTE in progress (R202). -/
def Core.tokensSeen (c : Core) : Nat :=
  match c.f.run with
  | some r => r.seen
  | none => 0

/-- A resumable instruction of thread t goes on after a die cycle that began in `before` (R485, R491, R492): a unit done ends the
exemption from breakpoints and watchpoints, and a stepping thread stops again at the progress point it has reached. -/
def Core.wentOn (c before : Core) (t : Nat) : Core :=
  let moved := !decide ((c.th t).prog.progress = (before.th t).prog.progress)
  let c1 := if moved || !decide (c.tokensSeen = before.tokensSeen) then c.modTh t fun th => { th with skipBp := false } else c
  if moved && (before.th t).stepping then c1.stopThread t 4 0 false 0 else c1

/-- The level of a thread: threads 1 to 3 execute only at L0 (R107). -/
def Core.levelOf (c : Core) (t : Nat) : Nat := if t = 0 then c.f.exc.level.toNat else 0

/-- A thread whose VROUTE or VDELTA was stopped issues another instruction at the level at which it issued that one: it is no longer in
progress (log 59). A handler of thread 0 runs at another level and leaves it. -/
def Core.dropRun (c : Core) (t unit : Nat) : Core :=
  match c.f.run with
  | some r =>
    if r.thread.toNat = t ∧ r.level = c.levelOf t ∧ r.unit.toNat ≠ unit then { c with f := { c.f with run := none } } else c
  | none => c

/-- The outcome of trying to issue. -/
inductive IssueOut where
  | held (c : Core) (state : Nat)   -- did not issue (R89)
  | done (c : Core)
  deriving Repr

/-- An instruction of thread t under condition k: breakpoint, encoding, condition, progress register, then its operation; how a cause
is raised is up to the caller (R57, R59, R64, R91, R115, R491). -/
def Core.issue (c : Core) (raise : Core → Nat → FaultRec → Core) (t : Nat) (k : BitVec 4) (enc : Bool) (word : Word) (op : Op)
    (run : Core → Res Core) : IssueOut :=
  let th := c.th t
  let was := th.stepping
  match c.breakpoint t with
  | some b => .done (c.stopThread t 2 b (bitOf (sget 0 c.f.dbg.bp b) 25) 0)
  | none =>
    if !enc then
      .done ((raise (c.modTh t Thread.consume) t (illegalAt th.pc word)).endStep t was)
    else if !condHolds k th.flags then
      .done (((c.countIssue t th.pc 0).modTh t Thread.advance).endStep t was)
    else if th.prog.valid && !decide (th.prog.unit.toNat = opUnit op) then
      .done ((raise (c.modTh t Thread.consume) t (illegalAt th.pc word)).endStep t was)
    else
      match run (c.dropRun t (opUnit op)) with
      | .hold st => .held c st
      | .wait c' st => .held c' st
      | .ok c' => .done (((c'.countIssue t th.pc 0).modTh t Thread.advance).endStep t was)
      | .going c' => .done ((c'.countIssue t th.pc 0).wentOn c t)
      | .jump c' => .done ((c'.countIssue t th.pc 1).endStep t was)
      | .ret c' => .done ((c'.countIssue t th.pc 3).endStep t was)
      | .fault c' f => .done ((raise (c'.modTh t Thread.consume) t f).endStep t was)
      | .watch c' j addr => .done (c'.stopThread t 3 j (bitOf (sget 0 c.f.dbg.wpCtl j) 22) addr)

end Sys2Proof.Machine
end

