-- ==== Sys2Proof/Machine/Scalar.lean ====
section
/-! DEFINITION. The operations of the scalar, address-generator, branch and load/store instructions (R65 to R74). -/
namespace Sys2Proof.Machine

/-- The thread with its flags replaced when S = 1 (R60). -/
def Thread.flagsIf (th : Thread) (s : Bool) (fl : BitVec 4) : Thread := if s then { th with flags := fl } else th

/-- The register ALU functions (R60, R68). -/
def opAlu (t : Nat) (f : Alu) (gd ga gb : BitVec 5) (s : Bool) (c : Core) : Res Core :=
  c.thOp t fun th =>
    let r := aluResult f th.flags (th.rg ga) (th.rg gb)
    (th.wg gd r).flagsIf s (aluFlags f th.flags (th.rg ga) (th.rg gb) r)

/-- ADDI, ANDI, ORI, XORI (R68). -/
def opAluImm (t : Nat) (f : Alu) (gd ga : BitVec 5) (s : Bool) (imm : BitVec 11) (c : Core) : Res Core :=
  c.thOp t fun th =>
    let r := aluResult f th.flags (th.rg ga) (aluImmediate f imm)
    (th.wg gd r).flagsIf s (aluFlags f th.flags (th.rg ga) (aluImmediate f imm) r)

/-- CLZ (R70). -/
def opClz (t : Nat) (gd ga : BitVec 5) (c : Core) : Res Core := c.thOp t fun th => th.wg gd (clzResult (th.rg ga))

/-- BPERM (R70). -/
def opBperm (t : Nat) (gd ga gb : BitVec 5) (c : Core) : Res Core :=
  c.thOp t fun th => th.wg gd (bpermResult (th.rg ga) (th.rg gd) (th.rg gb))

/-- CMP: the flags of Ga − Gb (R60). -/
def opCmp (t : Nat) (ga gb : BitVec 5) (c : Core) : Res Core :=
  c.thOp t fun th => { th with flags := subFlags (th.rg ga) (th.rg gb) false (th.rg ga - th.rg gb) }

/-- CMPI: the flags of Ga − IMM11, sign-extended (R60, R68). -/
def opCmpi (t : Nat) (ga : BitVec 5) (imm : BitVec 11) (c : Core) : Res Core :=
  c.thOp t fun th => { th with flags := subFlags (th.rg ga) (imm.signExtend 32) false (th.rg ga - imm.signExtend 32) }

/-- MOVI (R80). -/
def opMovi (t : Nat) (gd : BitVec 5) (imm : BitVec 16) (c : Core) : Res Core :=
  c.thOp t fun th => th.wg gd (imm.signExtend 32)

/-- MOVHI: the upper half replaced, the lower kept (R80). -/
def opMovhi (t : Nat) (gd : BitVec 5) (imm : BitVec 16) (c : Core) : Res Core :=
  c.thOp t fun th => th.wg gd (imm ++ fld (th.rg gd) 0 16)

/-- SHLI, SHRI, SARI, RORI by KIND (R68). -/
def opShiftImm (t : Nat) (kind : BitVec 2) (gd ga amount : BitVec 5) (s : Bool) (c : Core) : Res Core :=
  c.thOp t fun th =>
    let r := shiftImmResult kind (th.rg ga) amount.toNat
    (th.wg gd r).flagsIf s (logicFlags th.flags r)

/-- BFI (R69). -/
def opBfi (t : Nat) (gd ga pos : BitVec 5) (width : BitVec 6) (c : Core) : Res Core :=
  c.thOp t fun th => th.wg gd (bfiResult (th.rg gd) (th.rg ga) pos.toNat width.toNat)

/-- BFX (R69). -/
def opBfx (t : Nat) (gd ga pos : BitVec 5) (width : BitVec 6) (sgn : Bool) (c : Core) : Res Core :=
  c.thOp t fun th => th.wg gd (bfxResult (th.rg ga) pos.toNat width.toNat sgn)

/-! ## Loads and stores -/

/-- What a load writes: a vector register for SIZE V, otherwise a general register (R72, Table 03.6). -/
def Thread.writeLoad (th : Thread) (rd : BitVec 5) (size : BitVec 3) (bs : List Byte) : Thread :=
  if size = 5 then th.wv rd (BitVec.ofNat 512 (natOfBytes bs)) else th.wg rd (loadResult size bs)

/-- The bytes a store moves (R72, Table 03.6). -/
def Thread.storeBytes (th : Thread) (rs : BitVec 5) (size : BitVec 3) : List Byte :=
  if size = 5 then bytesOf 64 (th.rv rs) else bytesOf (sizeBytes size) (th.rg rs)

/-- LDR (R72). -/
def opLdr (t : Nat) (rd : BitVec 5) (cr : BitVec 4) (ga : BitVec 5) (size : BitVec 3) (imm : BitVec 5) (c : Core) : Res Core :=
  let th := c.th t
  let cap := th.rc cr
  let addr := regAddress cap (th.rg ga) imm size
  match spadCheck cap permRD addr (sizeBytes size) (alignOf (sizeBytes size)) with
  | some r => .fault c (capFault th.pc r cr cap (saddrOf r addr))
  | none => c.load t addr.toNat (sizeBytes size) fun bs c' => c'.thOp t fun y => y.writeLoad rd size bs

/-- STR (R72). -/
def opStr (t : Nat) (rs : BitVec 5) (cr : BitVec 4) (ga : BitVec 5) (size : BitVec 3) (imm : BitVec 5) (c : Core) : Res Core :=
  let th := c.th t
  let cap := th.rc cr
  let addr := regAddress cap (th.rg ga) imm size
  match spadCheck cap permWR addr (sizeBytes size) (alignOf (sizeBytes size)) with
  | some r => .fault c (capFault th.pc r cr cap (saddrOf r addr))
  | none => c.store t addr.toNat (th.storeBytes rs size) fun c' => .ok c'

/-- The thread with AGk post-modified when P = 1 (R66). -/
def Thread.postIf (th : Thread) (k : BitVec 2) (p : Bool) : Thread := if p then th.wag k (th.rag k).step1 else th

/-- LDA (R72, R66). -/
def opLda (e : Env) (t : Nat) (rd : BitVec 5) (k : BitVec 2) (p : Bool) (size : BitVec 3) (c : Core) : Res Core :=
  let th := c.th t
  let a := th.rag k
  if a.illegal p then c.illegal e t
  else match th.agCheck a permRD (sizeBytes size) (alignOf (sizeBytes size)) with
    | some f => .fault c f
    | none => c.load t a.address.toNat (sizeBytes size) fun bs c' =>
        c'.thOp t fun y => (y.postIf k p).writeLoad rd size bs

/-- STA (R72, R66). -/
def opSta (e : Env) (t : Nat) (rs : BitVec 5) (k : BitVec 2) (p : Bool) (size : BitVec 3) (c : Core) : Res Core :=
  let th := c.th t
  let a := th.rag k
  if a.illegal p then c.illegal e t
  else match th.agCheck a permWR (sizeBytes size) (alignOf (sizeBytes size)) with
    | some f => .fault c f
    | none => c.store t a.address.toNat (th.storeBytes rs size) fun c' => c'.thOp t fun y => y.postIf k p

/-- The two operands of MACD and VMACD, n bytes each at AG0 and AG1, and both post-modifies (R71, R78). Where both accesses fail, the
manual does not say which failure is reported: the model makes every capability check of AG0 before those of AG1, and AG0's access before
AG1's (DESIGN CHOICE, log 22). -/
def opMac (e : Env) (t : Nat) (p : Bool) (n : Nat) (k : List Byte → List Byte → Thread → Thread) (c : Core) : Res Core :=
  let th := c.th t
  let a0 := th.rag 0
  let a1 := th.rag 1
  if a0.illegal p || a1.illegal p then c.illegal e t
  else match th.agCheck a0 permRD n (alignOf n) with
    | some f => .fault c f
    | none =>
      match th.agCheck a1 permRD n (alignOf n) with
      | some f => .fault c f
      | none =>
        c.load t a0.address.toNat n fun x c1 =>
          c1.load t a1.address.toNat n fun y c2 =>
            c2.thOp t fun z => ((k x y z).postIf 0 p).postIf 1 p

/-- Bytes of a MACD SIZE (R71). -/
def macBytes (size : BitVec 2) : Nat :=
  match size.toNat with
  | 0 => 1 | 1 => 1 | 2 => 2 | _ => 4

/-- The product of a MACD, modulo 2^32 (R71). -/
def macProduct (size : BitVec 2) (x y : List Byte) : Word :=
  let a := natOfBytes x
  let b := natOfBytes y
  match size.toNat with
  | 0 => BitVec.ofInt 32 ((BitVec.ofNat 8 a).toInt * (BitVec.ofNat 8 b).toInt)
  | 1 => BitVec.ofNat 32 (a * b)
  | 2 => BitVec.ofInt 32 ((BitVec.ofNat 16 a).toInt * (BitVec.ofNat 16 b).toInt)
  | _ => BitVec.ofNat 32 (a * b)

/-- MACD (R71). -/
def opMacd (e : Env) (t : Nat) (gd : BitVec 5) (z p : Bool) (size : BitVec 2) (c : Core) : Res Core :=
  opMac e t p (macBytes size)
    (fun x y th => th.wg gd ((if z then 0 else th.rg gd) + macProduct size x y)) c

/-! ## Address generators -/

/-- The generator with a field written by AGSET; none when the value lies outside its range (R65, Table 03.5). -/
def AGen.setField (a : AGen) (field : BitVec 3) (x : Word) : Option AGen :=
  match field.toNat with
  | 0 => if x.toNat < 2 ^ 17 then some { a with base := fld x 0 17 } else none
  | 1 => if x.toNat < 2 ^ 17 then some { a with index := fld x 0 17 } else none
  | 2 => if -2 ^ 17 ≤ x.toInt ∧ x.toInt < 2 ^ 17 then some { a with step := fld x 0 18 } else none
  | 3 => if 1 ≤ x.toNat ∧ x.toNat ≤ 2 ^ 17 then some { a with modulus := fld x 0 18 } else none
  | 4 => if x.toNat ≤ 2 then some { a with mode := fld x 0 2 } else none
  | _ => none

/-- A generator's field (Table 03.5); STEP is signed. -/
def AGen.getField (a : AGen) (field : BitVec 3) : Word :=
  match field.toNat with
  | 0 => a.base.setWidth 32
  | 1 => a.index.setWidth 32
  | 2 => a.step.signExtend 32
  | 3 => a.modulus.setWidth 32
  | _ => a.mode.setWidth 32

/-- AGSET (R65). -/
def opAgset (e : Env) (t : Nat) (k : BitVec 2) (ga : BitVec 5) (field : BitVec 3) (c : Core) : Res Core :=
  match ((c.th t).rag k).setField field ((c.th t).rg ga) with
  | none => c.illegal e t
  | some a => c.thOp t fun th => th.wag k a

/-- AGGET (R65). -/
def opAgget (t : Nat) (k : BitVec 2) (gd : BitVec 5) (field : BitVec 3) (c : Core) : Res Core :=
  c.thOp t fun th => th.wg gd ((th.rag k).getField field)

/-- AGADD: the post-modify with the immediate in place of STEP (R66, R67). -/
def opAgadd (e : Env) (t : Nat) (k : BitVec 2) (imm : BitVec 17) (c : Core) : Res Core :=
  let a := (c.th t).rag k
  if a.illegal true then c.illegal e t
  else c.thOp t fun th => th.wag k (a.post imm.toInt imm.toInt)

/-- AGBIND (R67). -/
def opAgbind (t : Nat) (k : BitVec 2) (cr : BitVec 4) (c : Core) : Res Core :=
  c.thOp t fun th => th.wag k { th.rag k with cap := some cr }

/-! ## Branches and system values -/

/-- A taken branch of thread t (R62). -/
def Core.branch (c : Core) (t : Nat) (pc : BitVec 17) : Res Core := .jump (c.modTh t fun th => th.jumpTo pc)

/-- B: PC + 4 × OFF22 (R73). -/
def opB (t : Nat) (off : BitVec 22) (c : Core) : Res Core :=
  c.branch t ((c.th t).pc + BitVec.ofInt 17 (4 * off.toInt))

/-- BL: as B, with PC + 4 to G31 (R73). -/
def opBl (t : Nat) (off : BitVec 22) (c : Core) : Res Core :=
  let pc := (c.th t).pc
  (c.modTh t fun th => th.wg 31 ((pc + 4).setWidth 32)).branch t (pc + BitVec.ofInt 17 (4 * off.toInt))

/-- BR and BLR: ALIGN, then BOUNDS above 0x1_FFFF, then the branch to Ga, linking when L = 1 (R73). -/
def opBr (t : Nat) (ga : BitVec 5) (link : Bool) (c : Core) : Res Core :=
  let th := c.th t
  let x := th.rg ga
  if fld x 0 2 ≠ 0 then .fault c (capFault th.pc .align 15 (th.rc 15) x)
  else if 2 ^ 17 ≤ x.toNat then .fault c (capFault th.pc .bounds 15 (th.rc 15) x)
  else (if link then c.modTh t fun y => y.wg 31 ((th.pc + 4).setWidth 32) else c).branch t (fld x 0 17)

/-- RDSR (R74, Table 03.7). -/
def opRdsr (e : Env) (t : Nat) (gd : BitVec 5) (sr : BitVec 4) (c : Core) : Res Core :=
  match sr.toNat with
  | 0 => c.thOp t fun th => th.wg gd (BitVec.ofNat 32 t)
  | 1 => c.thOp t fun th => th.wg gd (BitVec.ofNat 32 e.w)
  | 2 => c.thOp t fun th => { th with cycHi := fld c.t.cyc 32 32 }.wg gd (fld c.t.cyc 0 32)
  | 3 => c.thOp t fun th => th.wg gd th.cycHi
  | _ => c.thOp t fun th => th.wg gd (fld (sget 0 c.t.cnt (cntPerf t)) 0 32)

/-- IFLUSH: as a taken branch to the next instruction (R62). -/
def opIflush (t : Nat) (c : Core) : Res Core := c.branch t ((c.th t).pc + 4)

end Sys2Proof.Machine
end

