-- ==== Sys2Proof/Machine/Caps.lean ====
section
/-! DEFINITION. The operations of the capability instructions (R101 to R103), TRAP, RFE and the save-set moves (R116 to R118). -/
namespace Sys2Proof.Machine

/-- The granule at 16-byte granule g as a capability with its tag (R99). -/
def Spad.granule (sp : Spad) (g : Nat) (bs : List Byte) : Cap := ⟨sget false sp.tags g, BitVec.ofNat 128 (natOfBytes bs)⟩

/-- CLD (R101); a tag parity error is cause 4 (R99). -/
def opCld (t : Nat) (cd cb : BitVec 4) (ga : BitVec 5) (c : Core) : Res Core :=
  let th := c.th t
  let cap := th.rc cb
  let addr := cap.ubase + (th.rg ga).toNat
  match spadCheck cap (permRD ||| permLDC) addr 16 16 with
  | some r => .fault c (capFault th.pc r cb cap (saddrOf r addr))
  | none =>
    c.load t addr 16 fun bs c' =>
      if sget false c.f.spad.tagBad (addr / 16) then .fault c' (ueFault th.pc (addr / 8))
      else c'.thOp t fun y => y.wc cd (c.f.spad.granule (addr / 16) bs)

/-- The tag of granule g set. -/
def Core.setTag (c : Core) (g : Nat) (b : Bool) : Core :=
  { c with f := { c.f with spad := { c.f.spad with tags := sset false c.f.spad.tags g b } } }

/-- CST (R101): WR, and STC when CS is tagged. -/
def opCst (t : Nat) (cs cb : BitVec 4) (ga : BitVec 5) (c : Core) : Res Core :=
  let th := c.th t
  let cap := th.rc cb
  let x := th.rc cs
  let addr := cap.ubase + (th.rg ga).toNat
  match spadCheck cap (if x.tag then permWR ||| permSTC else permWR) addr 16 16 with
  | some r => .fault c (capFault th.pc r cb cap (saddrOf r addr))
  | none => c.store t addr (bytesOf 16 x.bits) fun c' => .ok (c'.setTag (addr / 16) x.tag)

/-- CMOV, and CCLR with CLR = 1 (R101). -/
def opCmov (t : Nat) (cd cs : BitVec 4) (clr : Bool) (c : Core) : Res Core :=
  c.thOp t fun th => th.wc cd (if clr then { th.rc cs with tag := false } else th.rc cs)

/-- A field of a capability (Table 05.4, CINFO). -/
def Cap.info (x : Cap) (field : BitVec 3) : Word :=
  match field.toNat with
  | 0 => BitVec.ofNat 32 x.kind
  | 1 => x.perm.setWidth 32
  | 2 => fld x.bits 64 32
  | 3 => (fld x.bits 96 16).setWidth 32
  | 4 => fld x.bits 16 32
  | 5 => (fld x.bits 48 16).setWidth 32
  | 6 => x.sealWord.setWidth 32
  | _ => BitVec.ofNat 32 (b2n x.tag)

/-- CINFO (R101). -/
def opCinfo (t : Nat) (gd : BitVec 5) (cs : BitVec 4) (field : BitVec 3) (c : Core) : Res Core :=
  c.thOp t fun th => th.wg gd ((th.rc cs).info field)

/-- The capability narrowed by OFFSET, LEN and a mask; none when the result breaks a rule of R102. -/
def Cap.narrow (x : Cap) (off len : Nat) (mask : BitVec 12) : Option Cap :=
  let ub := x.ubase + off
  let stop := x.ubase + x.len
  if kindLimit x.kind ≤ ub ∨ stop < ub then none
  else
    let nl := if len = 0 then stop - ub else len
    if stop < ub + nl then none
    else some ⟨true, BitVec.ofNat 4 x.kind ++ (x.perm &&& mask) ++ BitVec.ofNat 48 (x.base + off) ++ BitVec.ofNat 48 nl
      ++ x.sealWord⟩

/-- CNARROW (R102). -/
def opCnarrow (t : Nat) (cd cs : BitVec 4) (ga gb : BitVec 5) (c : Core) : Res Core :=
  let th := c.th t
  let x := th.rc cs
  if !x.tag then .fault c (capFault th.pc .untagged cs x 0)
  else if x.sealWord ≠ 0 then .fault c (capFault th.pc .sealedCap cs x 0)
  else match x.narrow (th.rg ga).toNat (th.rg (ga + 1)).toNat (fld (th.rg gb) 0 12) with
    | none => .fault c (capFault th.pc .narrow cs x 0)
    | some y => c.thOp t fun z => z.wc cd y

/-- The current generation of a seal slot (R103). -/
def Core.gen (c : Core) (s : Nat) : BitVec 11 := sget 0 c.t.gen s

/-- A slot non-zero and within a SYS capability's range (R103). -/
def slotIn (ca : Cap) (s : Nat) : Bool := decide (s ≠ 0 ∧ ca.ubase ≤ s ∧ s < ca.ubase + ca.len)

/-- The capability with its seal word replaced. -/
def Cap.withSeal (x : Cap) (w : BitVec 16) : Cap := { x with bits := (fld x.bits 16 112) ++ w }

/-- CSTAMP (R103). -/
def opCstamp (t : Nat) (cd cs ca : BitVec 4) (ga : BitVec 5) (c : Core) : Res Core :=
  let th := c.th t
  let x := th.rc cs
  let a := th.rc ca
  let s := fldN (th.rg ga) 0 5
  if !x.tag then .fault c (capFault th.pc .untagged cs x 0)
  else if x.sealWord ≠ 0 then .fault c (capFault th.pc .sealedCap cs x 0)
  else match capUse a 9 permSTAMP with
    | some r => .fault c (capFault th.pc r ca a 0)
    | none =>
      if !slotIn a s then .fault c (capFault th.pc .slot ca a 0)
      else c.thOp t fun y => y.wc cd (x.withSeal (BitVec.ofNat 5 s ++ c.gen s))

/-- CREDEEM (R103). -/
def opCredeem (t : Nat) (cd cs ca : BitVec 4) (c : Core) : Res Core :=
  let th := c.th t
  let x := th.rc cs
  let a := th.rc ca
  if !x.tag then .fault c (capFault th.pc .untagged cs x 0)
  else if x.sealWord = 0 then .fault c (capFault th.pc .sealedCap cs x 0)
  else match capUse a 9 permREDEEM with
    | some r => .fault c (capFault th.pc r ca a 0)
    | none =>
      if !slotIn a x.sealSlot then .fault c (capFault th.pc .slot ca a 0)
      else if x.sealGen ≠ (c.gen x.sealSlot).toNat then .fault c (capFault th.pc .stale cs x 0)
      else c.thOp t fun y => y.wc cd (x.withSeal 0)

/-- Whether CS is tagged and sealed under slot s at its current generation (R103). -/
def Core.sealCurrent (c : Core) (x : Cap) (s : Nat) : Bool :=
  x.tag && !decide (x.sealWord = 0) && decide (x.sealSlot = s) && decide (x.sealGen = (c.gen s).toNat)

/-- CTEST: Z alone (R103, Table 03.4). -/
def opCtest (t : Nat) (cs : BitVec 4) (ga : BitVec 5) (c : Core) : Res Core :=
  c.thOp t fun th =>
    let z := c.sealCurrent (th.rc cs) (fldN (th.rg ga) 0 5)
    { th with flags := mkFlags (flagN th.flags) z (flagC th.flags) (flagV th.flags) }

/-- CREVOKE (R103). -/
def opCrevoke (t : Nat) (ca : BitVec 4) (ga : BitVec 5) (c : Core) : Res Core :=
  let th := c.th t
  let a := th.rc ca
  let s := fldN (th.rg ga) 0 5
  match capUse a 9 permREVOKE with
  | some r => .fault c (capFault th.pc r ca a 0)
  | none =>
    if !slotIn a s then .fault c (capFault th.pc .slot ca a 0)
    else .ok { c with t := { c.t with gen := sset 0 c.t.gen s (c.gen s + 1) } }

/-! ## TRAP, RFE, save sets -/

/-- TRAP: cause 7 with n, SPC the next instruction, SCAP CS; illegal at L2 (R107, R116). -/
def opTrap (e : Env) (t : Nat) (n : BitVec 8) (cs : BitVec 4) (c : Core) : Res Core :=
  let th := c.th t
  if c.levelOf t = 2 then c.illegal e t
  else .fault (c.countIssue t th.pc 0) { cause := 7, spc := th.pc + 4, sinfo := n.setWidth 32, scap := th.rc cs }

/-- A scalar field of a save set (Table 05.9). -/
def SaveSet.field (s : SaveSet) (i : Nat) : Word :=
  match i with
  | 0 => s.spc.setWidth 32
  | 1 => s.sflags.setWidth 32
  | 2 => BitVec.ofNat 32 (s.cause.toNat + 16 * s.thread.toNat + 64 * s.fromLevel.toNat + 256 * b2n s.async)
  | 3 => s.sinfo
  | 4 => s.saddr
  | 5 => s.sprog.word
  | 6 => BitVec.ofNat 32 (s.scapIdx.toNat + 16 * b2n s.scapWb + 32 * b2n s.dispose)
  | 7 => s.sretPc.setWidth 32
  | 8 => s.sretFlags.setWidth 32
  | 9 => s.sretProg.word
  | _ => 0

/-- A PC from a word: bits [1:0] read as zero (Table 05.9). -/
def pcOfWord (x : Word) : BitVec 17 := fld x 0 17 &&& ~~~3

/-- The save set with a scalar field written; RO fields ignored (R113). -/
def SaveSet.setField (s : SaveSet) (i : Nat) (x : Word) : SaveSet :=
  match i with
  | 0 => { s with spc := pcOfWord x }
  | 1 => { s with sflags := fld x 0 4 }
  | 5 => { s with sprog := progOfWord x }
  | 6 => { s with scapIdx := fld x 0 4, scapWb := bitOf x 4, dispose := bitOf x 5 }
  | 7 => { s with sretPc := pcOfWord x }
  | 8 => { s with sretFlags := fld x 0 4 }
  | 9 => { s with sretProg := progOfWord x }
  | _ => s

/-- A capability field of a save set (Table 05.9). -/
def SaveSet.cap (s : SaveSet) (k : Nat) : Cap :=
  match k with
  | 0 => s.scode | 1 => s.scap | _ => s.sretCode

/-- The save set with a capability field written. -/
def SaveSet.setCap (s : SaveSet) (k : Nat) (x : Cap) : SaveSet :=
  match k with
  | 0 => { s with scode := x } | 1 => { s with scap := x } | _ => { s with sretCode := x }

/-- The save set a move of thread t with bit SET names: none where the move is illegal (R107, R116). -/
def Core.setNamed (c : Core) (t : Nat) (set : Bool) : Option Nat :=
  match c.levelOf t with
  | 0 => none
  | 1 => if set then none else some 1
  | _ => if set then some 1 else some 2

/-- Save set 1 or 2. -/
def Core.saveSet (c : Core) (n : Nat) : SaveSet := if n = 1 then c.f.exc.l1 else c.f.exc.l2
/-- The core with save set 1 or 2 replaced. -/
def Core.putSet (c : Core) (n : Nat) (s : SaveSet) : Core :=
  { c with f := { c.f with exc := if n = 1 then { c.f.exc with l1 := s } else { c.f.exc with l2 := s } } }

/-- SSRD (R116). -/
def opSsrd (e : Env) (t : Nat) (field : BitVec 4) (gd : BitVec 5) (set : Bool) (c : Core) : Res Core :=
  match c.setNamed t set with
  | none => c.illegal e t
  | some n => c.thOp t fun th => th.wg gd ((c.saveSet n).field field.toNat)

/-- SSWR (R116). -/
def opSswr (e : Env) (t : Nat) (field : BitVec 4) (ga : BitVec 5) (set : Bool) (c : Core) : Res Core :=
  match c.setNamed t set with
  | none => c.illegal e t
  | some n => .ok (c.putSet n ((c.saveSet n).setField field.toNat ((c.th t).rg ga)))

/-- SCRD (R116). -/
def opScrd (e : Env) (t : Nat) (cf : BitVec 2) (cd : BitVec 4) (set : Bool) (c : Core) : Res Core :=
  match c.setNamed t set with
  | none => c.illegal e t
  | some n => c.thOp t fun th => th.wc cd ((c.saveSet n).cap cf.toNat)

/-- SCWR (R116). -/
def opScwr (e : Env) (t : Nat) (cf : BitVec 2) (cs : BitVec 4) (set : Bool) (c : Core) : Res Core :=
  match c.setNamed t set with
  | none => c.illegal e t
  | some n => .ok (c.putSet n ((c.saveSet n).setCap cf.toNat ((c.th t).rc cs)))

/-- Whether a field is derivable from CSYS (R117). -/
def derivable (sys x : Cap) : Bool :=
  !x.tag ||
  (sys.tag && decide (sys.kind = 9) && decide (sys.sealWord = 0)
    && decide (1 ≤ x.kind) && sys.perm.getLsbD (x.kind - 1) && decide (x.kind ≤ 9)
    && (decide (x.sealWord = 0) || slotIn sys x.sealSlot)
    && (!decide (x.kind = 9) ||
        (decide (x.perm &&& sys.perm = x.perm) && decide (sys.ubase ≤ x.ubase ∧ x.ubase + x.len ≤ sys.ubase + sys.len))))

/-- The first field of a save set that is not derivable: SCODE, SCAP when SCAP_WB = 1, SRET_CODE when the target is not thread 0
(R117). -/
def SaveSet.underivable (s : SaveSet) (sys : Cap) : Option Nat :=
  if !derivable sys s.scode then some 0
  else if s.scapWb && !derivable sys s.scap then some 1
  else if !decide (s.thread = 0) && !derivable sys s.sretCode then some 2
  else none

/-- The release of a save set and what it restores (R118). -/
def Core.release (c : Core) (n : Nat) : Core :=
  let s := c.saveSet n
  let t := s.thread.toNat
  let c1 := c.putSet n { s with occ := false }
  let restore := fun (y : Thread) =>
    let z := { (y.jumpTo s.spc).wc 15 s.scode with flags := s.sflags, prog := s.sprog, faultHeld := false }
    if s.scapWb then z.wc s.scapIdx s.scap else z
  let c2 := if t ≠ 0 ∧ s.dispose then c1.disableThread t else c1.modTh t restore
  if t ≠ 0 then
    let c3 := c2.modTh 0 fun y =>
      { (y.jumpTo s.sretPc).wc 15 s.sretCode with flags := s.sretFlags, prog := s.sretProg }
    { c3 with f := { c3.f with exc := { c3.f.exc with level := 0 } } }
  else { c2 with f := { c2.f with exc := { c2.f.exc with level := s.fromLevel } } }

/-- RFE (R117, R118): illegal at L0; a failed check restores nothing and raises cause 3. -/
def opRfe (e : Env) (t : Nat) (csys : BitVec 4) (c : Core) : Res Core :=
  let th := c.th t
  let n := c.levelOf t
  if n = 0 then c.illegal e t
  else
    let sys := th.rc csys
    match capUse sys 9 0 with
    | some r => .fault c (capFault th.pc r csys sys 0)
    | none =>
      match (c.saveSet n).underivable sys with
      | some i => .fault c (capFault th.pc .notDerivable csys sys (BitVec.ofNat 32 i))
      | none => .ret (c.release n)

end Sys2Proof.Machine
end

