-- ==== Sys2Proof/Machine/Geometry.lean ====
section
/-! DEFINITION. Coordinates, groves, memory ports and routes (R12 to R24, R285, R286). Cores are named by their logical core
word: x + 512 · y. -/
namespace Sys2Proof.Machine

/-- The logical core word of (x, y) (Table 01.3). -/
def wordXY (x y : Nat) : Nat := x + 512 * y
/-- x of a logical core word. -/
def coreX (w : Nat) : Nat := w % 512
/-- y of a logical core word. -/
def coreY (w : Nat) : Nat := w / 512
/-- Whether a logical core word names a core (R20). -/
def coreOk (w : Nat) : Bool := decide (coreX w < 400 ∧ coreY w < 480)
/-- The die of a core, dy · 5 + dx (R13). -/
def dieOf (w : Nat) : Nat := coreY w / 96 * 5 + coreX w / 80
/-- lx of a core (R13). -/
def localX (w : Nat) : Nat := coreX w % 80
/-- ly of a core (R13). -/
def localY (w : Nat) : Nat := coreY w % 96
/-- The module grove number of a core (R14). -/
def groveOf (w : Nat) : Nat := dieOf w * 30 + localY w / 16 * 5 + localX w / 16
/-- The row of its grove a core lies in. -/
def rowOf (w : Nat) : Nat := localY w % 16
/-- The logical position of a core in its grove row (R13). -/
def posOf (w : Nat) : Nat := localX w % 16
/-- The die of a grove. -/
def dieOfGrove (g : Nat) : Nat := g / 30
/-- The core at position j of row r of grove g. -/
def coreAt (g r j : Nat) : Nat :=
  let d := g / 30
  let k := g % 30
  wordXY (d % 5 * 80 + k % 5 * 16 + j) (d / 5 * 96 + k / 5 * 16 + r)
/-- The 256 cores of a grove (R13). -/
def groveCores (g : Nat) : List Nat :=
  (List.range 16).flatMap fun r => (List.range 16).map fun j => coreAt g r j
/-- The 30 groves of a die. -/
def dieGroves (d : Nat) : List Nat := (List.range 30).map (· + 30 * d)
/-- The core whose MMAs a checker serves is its west neighbour in the row, cyclically; this is the checker of w (R167). -/
def checkerOf (w : Nat) : Nat := coreAt (groveOf w) (rowOf w) ((posOf w + 1) % 16)
/-- The physical position of logical position j under a row code (R15). -/
def physPos (code j : Nat) : Nat := if j < code then j else j + 1

/-- The die a memory port serves (R21). -/
def portDie (m : Nat) : Nat :=
  let k := m / 4
  let i := k % 4 + 1
  let j := k / 4 + 1
  match m % 4 with
  | 0 => (j - 1) * 5 + (i - 1)
  | 1 => (j - 1) * 5 + i
  | 2 => j * 5 + (i - 1)
  | _ => j * 5 + i

/-- Whether a memory port sits on the south, and on the east, of its die (R21): quadrant 0 serves the die whose SE corner it is. -/
def portSouth (m : Nat) : Bool := decide (m % 4 < 2)
/-- See `portSouth`. -/
def portEast (m : Nat) : Bool := decide (m % 2 = 0)

/-- lx of the outer column and first lx of the outer row of a port; ly of the outer row and first ly of the outer column (Table
01.5). -/
def portCol (m : Nat) : Nat := if portEast m then 79 else 0
/-- See `portCol`. -/
def portRow (m : Nat) : Nat := if portSouth m then 95 else 0
/-- See `portCol`. -/
def portLx0 (m : Nat) : Nat := if portEast m then 64 else 0
/-- See `portCol`. -/
def portLy0 (m : Nat) : Nat := if portSouth m then 80 else 0

/-- x held within [lo, hi]. -/
def clampN (x lo hi : Nat) : Nat := if x < lo then lo else if hi < x then hi else x
/-- The distance of two numbers. -/
def distN (a b : Nat) : Nat := (a - b) + (b - a)
/-- Hops between two cores (R285). -/
def hops (a b : Nat) : Nat := distN (coreX a) (coreX b) + distN (coreY a) (coreY b)

/-- A core of a die by its local coordinates. -/
def dieCore (d lx ly : Nat) : Nat := wordXY (d % 5 * 80 + lx) (d / 5 * 96 + ly)

/-- The attachment core of memory port m for core w, by the core's lx and ly, and whether it lies on the outer column (R286). -/
def memAttach (m w : Nat) : Nat × Bool :=
  let d := portDie m
  let row := dieCore d (clampN (localX w) (portLx0 m) (portLx0 m + 15)) (portRow m)
  let col := dieCore d (portCol m) (clampN (localY w) (portLy0 m) (portLy0 m + 15))
  if hops w col < hops w row then (col, true) else (row, false)

/-- The first attachment core and the direction of an external port: CXL, then E0 to E7 (Table 01.6). -/
def extBase : Node → Option (Nat × Nat × Bool)
  | .cxl => some (198, 0, false)
  | .eth 0 => some (118, 0, false)
  | .eth 1 => some (278, 0, false)
  | .eth 2 => some (118, 479, false)
  | .eth 3 => some (278, 479, false)
  | .eth 4 => some (0, 142, true)
  | .eth 5 => some (0, 334, true)
  | .eth 6 => some (399, 142, true)
  | .eth 7 => some (399, 334, true)
  | _ => none

/-- The attachment core of a port for core w, and whether the port's edge is west, east or an outer column (R286). -/
def attachOf (n : Node) (w : Nat) : Option (Nat × Bool) :=
  match n with
  | .mem m => if m < 64 then some (memAttach m w) else none
  | n =>
    match extBase n with
    | none => none
    | some (x, y, vert) =>
      let k := (coreX w + coreY w) % 4
      some (if vert then wordXY x (y + k) else wordXY (x + k) y, vert)

/-- One hop of a route toward core b under ORDER (R285): side 0 N, 1 E, 2 S, 3 W; none when there. -/
def nextSide (a b : Nat) (yx : Bool) : Option Nat :=
  let sx : Option Nat := if coreX a < coreX b then some 1 else if coreX b < coreX a then some 3 else none
  let sy : Option Nat := if coreY a < coreY b then some 2 else if coreY b < coreY a then some 0 else none
  if yx then sy.or sx else sx.or sy

/-- The neighbour on a side; none at the module's edge. -/
def neighbour (w side : Nat) : Option Nat :=
  match side with
  | 0 => if coreY w = 0 then none else some (w - 512)
  | 1 => if coreX w = 399 then none else some (w + 1)
  | 2 => if coreY w = 479 then none else some (w + 512)
  | 3 => if coreX w = 0 then none else some (w - 1)
  | _ => none

/-- The opposite side. -/
def opposite (side : Nat) : Nat := (side + 2) % 4

/-- Whether a side of a core is a die seam (R293). -/
def isSeam (w side : Nat) : Bool :=
  match neighbour w side with
  | none => false
  | some v => !decide (dieOf v = dieOf w)

/-- The cores of a route from a to b, a left out (R285). -/
def routeFrom (yx : Bool) (b : Nat) : Nat → Nat → List Nat
  | 0, _ => []
  | n + 1, a =>
    match nextSide a b yx with
    | none => []
    | some s =>
      match neighbour a s with
      | none => []
      | some v => v :: routeFrom yx b n v

/-- The cores of the route from a to b, a left out. -/
def route (a b : Nat) (yx : Bool) : List Nat := routeFrom yx b (hops a b) a

/-- Whether ORDER 1 carries traffic from a core to a port on a side (vert: west, east or outer column), and back (R286). -/
def orderToPort (vert : Bool) : Bool := vert
/-- See `orderToPort`. -/
def orderFromPort (vert : Bool) : Bool := !vert

/-- The ports of a router: the port node on attachment k of core w (Tables 01.5, 01.6): 0 the first, 1 the outer-column link of a
memory corner core. -/
def attachment (w k : Nat) : Option Node :=
  let d := dieOf w
  let lx := localX w
  let ly := localY w
  let row := (List.range 64).find? fun m =>
    decide (portDie m = d ∧ ly = portRow m ∧ portLx0 m ≤ lx ∧ lx ≤ portLx0 m + 15)
  let col := (List.range 64).find? fun m =>
    decide (portDie m = d ∧ lx = portCol m ∧ portLy0 m ≤ ly ∧ ly ≤ portLy0 m + 15)
  let ext := ([Node.cxl] ++ (List.range 8).map Node.eth).find? fun n =>
    match extBase n with
    | none => false
    | some (x, y, vert) =>
      if vert then decide (coreX w = x ∧ y ≤ coreY w ∧ coreY w ≤ y + 3)
      else decide (coreY w = y ∧ x ≤ coreX w ∧ coreX w ≤ x + 3)
  let all := row.toList.map Node.mem ++ col.toList.map Node.mem ++ ext.toList
  all[k]?

/-- Flits of a message of n bytes (R283). -/
def flitsOf (n : Nat) : Nat := max 1 ((n + 31) / 32)

/-- A packet; responses take virtual channels 2 and 3 (Table 12.1). -/
def mkPacket (src dst : Node) (yx resp : Bool) (bytes : Nat) (body : Body) : Packet :=
  { src := src, dst := dst, yx := yx, vc := BitVec.ofNat 2 ((if resp then 2 else 0) + (if yx then 1 else 0))
    flits := flitsOf bytes, body := body }

end Sys2Proof.Machine
end

