-- ==== Sys2Proof/Machine/Chan.lean ====
section
/-! DEFINITION. Channels, counters, releases and remote writes on a core (chapters 06 and 11), and debug requests (R480). -/
namespace Sys2Proof.Machine

/-! ## Parts of a core -/

/-- Outbound half i. -/
def Core.chOut (c : Core) (i : Nat) : ChOut := sget {} c.f.ch.out i
/-- The core with outbound half i replaced. -/
def Core.setOut (c : Core) (i : Nat) (x : ChOut) : Core :=
  { c with f := { c.f with ch := { c.f.ch with out := sset {} c.f.ch.out i x } } }
/-- Inbound half i. -/
def Core.chIn (c : Core) (i : Nat) : ChIn := sget {} c.f.ch.inn i
/-- The core with inbound half i replaced. -/
def Core.setIn (c : Core) (i : Nat) (x : ChIn) : Core :=
  { c with f := { c.f with ch := { c.f.ch with inn := sset {} c.f.ch.inn i x } } }
/-- Counter Ki. -/
def Core.k (c : Core) (i : Nat) : KCnt := sget {} c.f.ch.k i
/-- The core with counter Ki replaced. -/
def Core.setK (c : Core) (i : Nat) (x : KCnt) : Core :=
  { c with f := { c.f with ch := { c.f.ch with k := sset {} c.f.ch.k i x } } }
/-- The core with its send pool replaced. -/
def Core.setPool (c : Core) (p : List PoolMsg) : Core := { c with f := { c.f with ch := { c.f.ch with pool := p } } }
/-- Outbound credit entry i. -/
def Core.ocred (c : Core) (i : Nat) : OCred := sget {} c.f.win.ocred i
/-- The core with outbound credit entry i replaced. -/
def Core.setOcred (c : Core) (i : Nat) (x : OCred) : Core :=
  { c with f := { c.f with win := { c.f.win with ocred := sset {} c.f.win.ocred i x } } }
/-- Inbound window i. -/
def Core.iwin (c : Core) (i : Nat) : IWin := sget {} c.f.win.iwin i
/-- The core with inbound window i replaced. -/
def Core.setIwin (c : Core) (i : Nat) (x : IWin) : Core :=
  { c with f := { c.f with win := { c.f.win with iwin := sset {} c.f.win.iwin i x } } }
/-- The core with thread t's release queue extended. -/
def Core.queueRel (c : Core) (t : Nat) (r : Release) : Core := c.modTh t fun th => { th with relq := th.relq ++ [r] }

/-- Counter Ki raised by n, with its last signaller (R272, R277). -/
def Core.raiseK (c : Core) (i n : Nat) (kind : Nat) (thread : BitVec 2) (ep : BitVec 5) (core : Nat) : Core :=
  c.setK i { val := (c.k i).val + BitVec.ofNat 64 n, kind := BitVec.ofNat 3 kind, thread := thread, ep := ep,
             core := BitVec.ofNat 18 core }

/-- The ORDER of traffic from this core to core w: that of an enabled outbound half that targets it, otherwise 0 (R258). -/
def Core.orderTo (c : Core) (w : Nat) : Bool :=
  (List.range 32).any fun i =>
    let o := c.chOut i
    o.en && !o.ext && decide (o.tgt.toNat = w) && decide (o.order = 1)

/-- A packet from core a to core b on the route between them (R258). -/
def Core.packetTo (c : Core) (a b : Nat) (resp : Bool) (bytes : Nat) (body : Body) : Packet :=
  mkPacket (.core a) (.core b) (c.orderTo b) resp bytes body

/-- A response or request sent to core b. -/
def Core.sendTo (c : Core) (a b : Nat) (resp : Bool) (bytes : Nat) (body : Body) : Core :=
  c.sendPkt (c.packetTo a b resp bytes body)

/-! ## Composing and sending -/

/-- Cause 5 (Table 11.1). -/
def chanFault (pc : BitVec 17) (reason ep : Nat) : FaultRec :=
  { cause := 5, spc := pc, sinfo := BitVec.ofNat 32 (reason + 16 * ep) }

/-- MPUT (R260). -/
def opMput (t : Nat) (size : Bool) (r : BitVec 5) (idx : BitVec 4) (c : Core) : Res Core :=
  c.thOp t fun th =>
    { th with stag := if size then th.rv r else setLane 32 th.stag idx.toNat (th.rg r) }

/-- The unit that an indexed capability names: BASE + Ga within the capability (R261, R273, R275). -/
def unitCheck (x : Cap) (kind : Nat) (need : BitVec 12) (ga : Word) : Option CapReason :=
  match capUse x kind need with
  | some r => some r
  | none => if x.len ≤ ga.toNat then some .bounds else none

/-- The reason an outbound half faults with: disabled, or an error bit (R261). -/
def ChOut.refusal (o : ChOut) : Option Nat :=
  if !o.en then some 1
  else if o.errRej then some 3
  else if o.errClr then some 4
  else if o.errUn then some 5
  else none

/-- Whether a half names one of some flows, each as TGT[10:0] has it (R374, R375, R379). -/
def ChOut.namesAny (o : ChOut) (flows : List Nat) : Bool := o.ext && decide (fldN o.tgt 0 11 ∈ flows)

/-- Unacknowledged messages of endpoint i. -/
def Core.unacked (c : Core) (i : Nat) : List PoolMsg := c.f.ch.pool.filter fun m => !m.dbg && decide (m.ep.toNat = i)

/-- Whether a message on endpoint i would be accepted: fewer than 8 unacknowledged and a free pool entry (R261, R262). -/
def Core.accepts (c : Core) (i : Nat) : Bool :=
  decide ((c.unacked i).length < 8) && decide (c.f.ch.pool.length < 16)

/-- A message or signal accepted into the pool under the half's next sequence number (R262, R267). -/
def Core.enpool (c : Core) (i : Nat) (m : PoolMsg) : Core :=
  let o := c.chOut i
  let c1 := c.setOut i { o with seqNext := o.seqNext + 1 }
  let m' := { m with id := c.f.ch.poolNext, ep := BitVec.ofNat 5 i, seq := o.seqNext }
  { c1 with f := { c1.f with ch := { c1.f.ch with pool := c1.f.ch.pool ++ [m'], poolNext := c.f.ch.poolNext + 1 } } }

/-- The remote writes and committed chunks a release of thread t waits for; a write on the route of the release's own message
travels ahead of it (R135). -/
def Core.relDeps (c : Core) (t : Nat) (tgt : Option Nat) : List Nat × List (Nat × Nat) :=
  ((c.f.win.rwOut.filter fun r => decide (r.thread.toNat = t) && !decide (some r.tgt = tgt)).map (·.id),
   (List.range 4).flatMap fun s =>
     ((sget {} c.f.str s).unacked.filter fun p => decide (p.2 = t)).map fun p => (s, p.1))

/-- The release of thread t that does act. -/
def Core.releaseOf (c : Core) (t : Nat) (tgt : Option Nat) (act : RelAct) : Release :=
  { act := act, rw := (c.relDeps t tgt).1, wr := (c.relDeps t tgt).2 }

/-- Whether the release queue of thread t has a free entry (R136). -/
def Core.relFree (c : Core) (t : Nat) : Bool := decide ((c.th t).relq.length < 4)

/-- The route target of an outbound half: none for a Glade flow (R259). -/
def ChOut.target (o : ChOut) : Option Nat := if o.ext then none else some o.tgt.toNat

/-- The first n bytes of the staging buffer. -/
def Thread.staged (th : Thread) (n : Nat) : List Byte := bytesOf n th.stag

/-- SEND through a CHAN capability (R261 to R263). -/
def opSendChan (e : Env) (t : Nat) (cs : BitVec 4) (ga : BitVec 5) (len : BitVec 4) (rel : Bool) (c : Core) : Res Core :=
  let th := c.th t
  let x := th.rc cs
  let g := th.rg ga
  match unitCheck x 3 permSEND g with
  | some r => .fault c (capFault th.pc r cs x (saddrOf r g.toNat))
  | none =>
    let i := x.ubase + g.toNat
    match (c.chOut i).refusal.or (if (c.chOut i).namesAny e.closed then some 3 else none) with
    | some r => .fault c (chanFault th.pc r i)
    | none =>
      if rel && !c.relFree t then .hold 7
      else if !c.accepts i then .hold 9
      else
        let m : PoolMsg := { data := th.staged (8 * len.toNat), thread := BitVec.ofNat 2 t, held := rel }
        let c1 := c.enpool i m
        .ok (if rel then c1.queueRel t (c.releaseOf t (c.chOut i).target (.pool c.f.ch.poolNext)) else c1)

/-! ## Remote writes -/

/-- The zero-run encoding of a line and its non-zero elements, by element width in bytes (R183). -/
def zrEncode (w : Nat) (line : List Byte) : List Byte × Nat :=
  let elems := (List.range (64 / w)).map fun e => (e, (line.drop (e * w)).take w)
  let nz := elems.filter fun p => p.2.any fun b => !decide (b = 0)
  let mask := nz.foldl (fun m p => m + 2 ^ p.1) 0
  let body := nz.flatMap (·.2)
  (bytesOfNat 8 mask ++ body ++ List.replicate ((8 - body.length % 8) % 8) 0, nz.length)

/-- The line a zero-run encoding expands to (R185). -/
def zrExpand (w : Nat) (enc : List Byte) : List Byte :=
  let mask := natOfBytes (enc.take 8)
  (expand (64 / w) mask (enc.drop 8)).take 64
where
  /-- The next n elements under a mask. -/
  expand : Nat → Nat → List Byte → List Byte
    | 0, _, _ => []
    | n + 1, mask, xs =>
      if mask % 2 = 1 then xs.take w ++ expand n (mask / 2) (xs.drop w)
      else List.replicate w 0 ++ expand n (mask / 2) xs

/-- The enabled credit entry for a target core and window (R139). -/
def Core.creditFor (c : Core) (tgt win : Nat) : Option Nat :=
  (List.range 16).find? fun i => (c.ocred i).en && decide ((c.ocred i).tgt.toNat = tgt ∧ (c.ocred i).win.toNat = win)

/-- SEND through an RSPAD capability: a remote write (R138 to R140, R184). -/
def opRemoteWrite (e : Env) (t : Nat) (cs : BitVec 4) (ga : BitVec 5) (len : BitVec 4) (rel : Bool) (c : Core) : Res Core :=
  let th := c.th t
  let x := th.rc cs
  let g := th.rg ga
  let n := 8 * len.toNat
  let off := x.ubase + g.toNat
  let bad := fun r => Res.fault c (capFault th.pc r cs x (saddrOf r g.toNat))
  match capUse x 2 permWR with
  | some r => bad r
  | none =>
    if x.len < g.toNat + n then bad .bounds
    else if off % 8 ≠ 0 then bad .align
    else
      let tgt := fldN x.bits 94 18
      let win := fldN x.bits 90 4
      match c.creditFor tgt win with
      | none => bad .noCredit
      | some i =>
        let zr := bitOf c.f.sp.zrOut i
        let wide := bitOf c.f.sp.zrOut (16 + i)
        if zr && !decide (n = 64 ∧ off % 64 = 0) then bad .align
        else if (c.ocred i).bal.toNat < n then bad .noCredit
        else if rel && !c.relFree t then .hold 7
        else if 32 ≤ c.f.win.rwOut.length then .hold 9
        else
          let data := th.staged n
          let enc := zrEncode (if wide then 2 else 1) data
          let sent := if zr then enc.1 else data
          let id := c.f.win.rwNext
          let body := Body.rwrite id (BitVec.ofNat 4 win) (BitVec.ofNat 17 off) sent (if zr then some wide else none)
          let p := c.packetTo e.w tgt false sent.length body
          let rec1 : RwOut := { id := id, thread := BitVec.ofNat 2 t, entry := BitVec.ofNat 4 i, tgt := tgt }
          let c1 := c.setOcred i { c.ocred i with bal := (c.ocred i).bal - BitVec.ofNat 18 n }
          let c2 : Core := { c1 with f := { c1.f with win := { c1.f.win with
            rwOut := c1.f.win.rwOut ++ [rec1], rwNext := id + 1 } } }
          let c3 := if zr then
              ((c2.bump (cntSp 3) 1).bump (cntSp 4) (b2n (enc.2 == 0))).bump (cntSp 5) enc.1.length
            else c2
          .ok (if rel then c3.queueRel t (c.releaseOf t (some tgt) (.pkt p)) else c3.sendPkt p)

/-- SEND through a DBG capability: a debug request (R480). With REL it is a release, held in its pool entry until its release takes effect
(R135, R263). -/
def opDebugRequest (t : Nat) (cs : BitVec 4) (len : BitVec 4) (rel : Bool) (c : Core) : Res Core :=
  let th := c.th t
  let x := th.rc cs
  let q := th.staged 16
  let tgt := natOfBytes (q.take 4)
  let offset := natOfBytes ((q.drop 4).take 2)
  let op := natOfBytes ((q.drop 6).take 1)
  let value := natOfBytes ((q.drop 8).take 4)
  let bad := fun r => Res.fault c (capFault th.pc r cs x 0)
  match capUse x 8 0 with
  | some r => bad r
  | none =>
    if len ≠ 2 ∨ 2 ^ 18 ≤ tgt ∨ !coreOk tgt ∨ groveOf tgt < x.ubase ∨ x.ubase + x.len ≤ groveOf tgt then bad .bounds
    else if (op = 0 ∧ x.perm &&& permRD = 0) ∨ (op ≠ 0 ∧ x.perm &&& permWR = 0)
        ∨ (op ≠ 0 ∧ offset = 0x2000 ∧ x.perm &&& permCTL = 0) then bad .perm
    else if !c.f.dbg.replyEn then bad .perm
    else if offset % 4 ≠ 0 ∨ offset < 0x2000 ∨ 1 < op ∨ (q.drop 7).take 1 ≠ [0] ∨ (q.drop 12) ≠ [0, 0, 0, 0] then bad .bounds
    else if rel && !c.relFree t then .hold 7
    else if 4 ≤ c.f.dbg.reqs.length ∨ 16 ≤ c.f.ch.pool.length then .hold 9
    else
      let r : DbgReq := { n := c.f.dbg.replyN, target := tgt, offset := offset, write := decide (op = 1),
                          value := BitVec.ofNat 32 value }
      let m : PoolMsg := { id := c.f.ch.poolNext, thread := BitVec.ofNat 2 t, sent := true, dbg := true, held := rel }
      let c1 := c.setPool (c.f.ch.pool ++ [m])
      let c2 : Core := { c1 with f := { c1.f with
        ch := { c1.f.ch with poolNext := c.f.ch.poolNext + 1 }
        dbg := { c1.f.dbg with reqs := c1.f.dbg.reqs ++ [r], replyN := c1.f.dbg.replyN + 1 } } }
      .ok (if rel then c2.queueRel t (c.releaseOf t none (.pool c.f.ch.poolNext)) else c2)

/-- SEND, by the kind of its capability (R138, R261, R480). -/
def opSend (e : Env) (t : Nat) (cs : BitVec 4) (ga : BitVec 5) (len : BitVec 4) (rel : Bool) (c : Core) : Res Core :=
  let x := (c.th t).rc cs
  if x.tag ∧ x.kind = 2 then opRemoteWrite e t cs ga len rel c
  else if x.tag ∧ x.kind = 8 then opDebugRequest t cs len rel c
  else opSendChan e t cs ga len rel c

/-! ## Receiving and counters -/

/-- RECV (R265). -/
def opRecv (t : Nat) (cs : BitVec 4) (ga vd gd : BitVec 5) (c : Core) : Res Core :=
  let th := c.th t
  let x := th.rc cs
  let g := th.rg ga
  match unitCheck x 3 permRECV g with
  | some r => .fault c (capFault th.pc r cs x (saddrOf r g.toNat))
  | none =>
    let i := x.ubase + g.toNat
    let h := c.chIn i
    if !h.en then .fault c (chanFault th.pc 2 i)
    else match h.q with
      | [] => .hold 8
      | m :: rest =>
        c.load t (h.qbase.toNat * 512 + 64 * m.slot.toNat) m.len fun bs c' =>
          let due := h.gap && !h.resumeSent
          let c2 := c'.setIn i { h with q := rest, resumeSent := h.resumeSent || due, resumeDue := h.resumeDue || due }
          c2.thOp t fun y => (y.wv vd (BitVec.ofNat 512 (natOfBytes bs))).wg gd (BitVec.ofNat 32 m.len)

/-- The amount of a CINC (R273). -/
def cincAmount (th : Thread) (gb : BitVec 5) (imm : Bool) : Word := if imm then gb.setWidth 32 else th.rg gb

/-- CINC (R273). -/
def opCinc (t : Nat) (cs : BitVec 4) (ga gb : BitVec 5) (imm : Bool) (c : Core) : Res Core :=
  let th := c.th t
  let x := th.rc cs
  let g := th.rg ga
  let n := cincAmount th gb imm
  if x.tag ∧ x.kind = 3 then
    match unitCheck x 3 permSEND g with
    | some r => .fault c (capFault th.pc r cs x (saddrOf r g.toNat))
    | none =>
      let i := x.ubase + g.toNat
      match (c.chOut i).refusal with
      | some r => .fault c (chanFault th.pc r i)
      | none =>
        if !c.relFree t then .hold 7
        else if !c.accepts i then .hold 9
        else
          let m : PoolMsg := { sig := some n, thread := BitVec.ofNat 2 t, held := true }
          .ok ((c.enpool i m).queueRel t (c.releaseOf t (c.chOut i).target (.pool c.f.ch.poolNext)))
  else match unitCheck x 4 permSEND g with
    | some r => .fault c (capFault th.pc r cs x (saddrOf r g.toNat))
    | none =>
      if !c.relFree t then .hold 7
      else .ok (c.queueRel t (c.releaseOf t none (.kadd (BitVec.ofNat 6 (x.ubase + g.toNat)) n)))

/-- CWAIT (R275). -/
def opCwait (t : Nat) (cs : BitVec 4) (ga gb : BitVec 5) (wide : Bool) (c : Core) : Res Core :=
  let th := c.th t
  let x := th.rc cs
  let g := th.rg ga
  match unitCheck x 4 permRECV g with
  | some r => .fault c (capFault th.pc r cs x (saddrOf r g.toNat))
  | none =>
    let goal := (th.rg gb).toNat + if wide then 2 ^ 32 * (th.rg (gb + 1)).toNat else 0
    if (c.k (x.ubase + g.toNat)).val.toNat < goal then .hold 10 else .ok c

/-- CRD (R280): the low word, latching the high word for this thread, or the latched high word. -/
def opCrd (t : Nat) (cs : BitVec 4) (ga gd : BitVec 5) (hi : Bool) (c : Core) : Res Core :=
  let th := c.th t
  let x := th.rc cs
  let g := th.rg ga
  match unitCheck x 4 permRD g with
  | some r => .fault c (capFault th.pc r cs x (saddrOf r g.toNat))
  | none =>
    let v := (c.k (x.ubase + g.toNat)).val
    c.thOp t fun y => if hi then y.wg gd y.kHi else { y with kHi := fld v 32 32 }.wg gd (fld v 0 32)

/-- The oldest unacknowledged sequence number of endpoint i: SEQ_NEXT when none is (Table 11.5). -/
def Core.seqOldest (c : Core) (i : Nat) : BitVec 8 :=
  match c.unacked i with
  | [] => (c.chOut i).seqNext
  | m :: ms =>
    let nx := (c.chOut i).seqNext
    ms.foldl (fun s y => if (nx - s).toNat < (nx - y.seq).toNat then y.seq else s) m.seq

/-- CH_OUT_STAT (Table 11.5). -/
def Core.outStat (c : Core) (i : Nat) : Word :=
  BitVec.ofNat 32 ((c.chOut i).seqNext.toNat + 2 ^ 8 * (c.seqOldest i).toNat + 2 ^ 16 * (c.unacked i).length
    + 2 ^ 20 * b2n (c.chOut i).recovery)

/-- CH_IN_STAT (Table 11.5). -/
def Core.inStat (c : Core) (i : Nat) : Word :=
  let h := c.chIn i
  BitVec.ofNat 32 (h.q.length + 2 ^ 4 * h.seqExp.toNat + 2 ^ 12 * b2n h.gap + 2 ^ 13 * b2n h.resumeSent)

/-- CHSTAT (R280). -/
def opChstat (t : Nat) (cs : BitVec 4) (ga gd : BitVec 5) (side : Bool) (c : Core) : Res Core :=
  let th := c.th t
  let x := th.rc cs
  let g := th.rg ga
  match unitCheck x 3 (if side then permRECV else permSEND) g with
  | some r => .fault c (capFault th.pc r cs x (saddrOf r g.toNat))
  | none =>
    let i := x.ubase + g.toNat
    c.thOp t fun y => y.wg gd (if side then c.inStat i else c.outStat i)

/-! ## Releases taking effect -/

/-- Whether a release's earlier writes are all acknowledged (R135). -/
def Core.relReady (c : Core) (r : Release) : Bool :=
  r.rw.all (fun i => !c.f.win.rwOut.any fun x => decide (x.id = i))
  && r.wr.all fun (s, j) => !(sget {} c.f.str s).unacked.any fun p => decide (p.1 = j)

/-- The credit that a CINC by n of counter k returns: a credit message to the source of each enabled window bound to it (R142). -/
def Core.returnCredit (c : Core) (w k : Nat) (n : Word) : Core :=
  if n = 0 then c
  else (List.range 16).foldl (fun c i =>
    let x := c.iwin i
    if x.en ∧ x.cntr.toNat = k then c.sendTo w x.src.toNat true 1 (.credit (BitVec.ofNat 4 i) n) else c) c

/-- What a release does when it takes effect (R135, R142, R263, R273). -/
def Core.effect (c : Core) (w t : Nat) (a : RelAct) : Core :=
  match a with
  | .nothing => c
  | .pool id => c.setPool (c.f.ch.pool.map fun m => if m.id = id then { m with held := false } else m)
  | .kadd k n => (c.raiseK k.toNat n.toNat 1 (BitVec.ofNat 2 t) 0 w).returnCredit w k.toNat n
  | .pkt p => c.sendPkt p

/-- The oldest release of thread t takes effect, when its earlier writes are acknowledged (R135, R136). -/
def Core.releaseEffect (c : Core) (w t : Nat) : Core :=
  match (c.th t).relq with
  | [] => c
  | r :: rest => if c.relReady r then (c.modTh t fun th => { th with relq := rest }).effect w t r.act else c

/-! ## Landings -/

/-- A remote-write acknowledgement: it counts toward releases; DISCARDED or CLEARED sets RW_ERR in the sender's entry while it is
enabled (R141, R143). -/
def Core.landRwAck (c : Core) (id : Nat) (status : BitVec 2) : Core :=
  match c.f.win.rwOut.find? fun r => decide (r.id = id) with
  | none => c
  | some r =>
    let c1 : Core := { c with f := { c.f with win := { c.f.win with
      rwOut := c.f.win.rwOut.filter fun x => !decide (x.id = id) } } }
    let o := c1.ocred r.entry.toNat
    if status ≠ 0 ∧ o.en then c1.setOcred r.entry.toNat { o with rwErr := true } else c1

/-- A credit message of n units for window win from core src (R142). -/
def Core.landCredit (c : Core) (src : Nat) (win : BitVec 4) (n : Word) : Core :=
  match c.creditFor src win.toNat with
  | none => c
  | some i =>
    let o := c.ocred i
    let lim := o.limit.toNat * 256
    let nb := o.bal.toNat + n.toNat * 256
    let c1 := c.setOcred i (if lim < nb then { o with bal := BitVec.ofNat 18 lim, credOvf := true }
                            else { o with bal := BitVec.ofNat 18 nb })
    c1.raiseK o.cntr.toNat n.toNat 3 0 0 src

/-- A router-side write of whole words into scratchpad (R128, R136). -/
def Core.routerWrite (c : Core) (a : Nat) (bs : List Byte) : Core :=
  { c with f := { c.f with
    spad := (c.f.spad.cleanWords (wordsOf a bs.length)).put a bs
    conf := c.f.conf.bind (Conflict.keep a bs.length) } }

/-- One byte of the zero map rewritten with its whole 8-byte word; none when that word is uncorrectable (R185, R186). -/
def Core.setMapBit (c : Core) (byte bit : Nat) (v : Bool) : Option Core :=
  match c.f.spad.firstUe [byte / 8] with
  | some _ => none
  | none =>
    let old := (sget 0 c.f.spad.mem byte).toNat
    let new := BitVec.ofNat 8 (if v then old ||| 2 ^ bit else old &&& (255 - 2 ^ bit))
    let word := (readBytes c.f.spad.mem (byte / 8 * 8) 8).set (byte % 8) new
    let c1 : Core := { c with f := { c.f with spad := c.f.spad.touch [byte / 8] } }
    some (c1.routerWrite (byte / 8 * 8) word)

/-- An inbound remote write: landed or discarded, and its acknowledgement sent (R141, R185, R186). -/
def Core.landRemoteWrite (c : Core) (w src id : Nat) (win : BitVec 4) (off : Nat) (data : List Byte) (zr : Option Bool) :
    Core :=
  let i := win.toNat
  let x := c.iwin i
  let lo := x.base.toNat * 256
  let n := if zr.isSome then 64 else data.length
  let ok := x.en && decide (x.src.toNat = src) && decide (lo ≤ off ∧ off + n ≤ lo + x.len.toNat * 256)
    && (zr.isSome == bitOf c.f.sp.zrIn i)
  let reply := fun (c : Core) (st : BitVec 2) => c.sendTo w src true 1 (.rwack id st)
  let discard := reply (c.bump (cntPerf 9) 1) 1
  if !ok then discard
  else match zr with
    | none => reply (c.routerWrite off data) 0
    | some wide =>
      let ln := (off - lo) / 64
      let byte := (sget 0 c.f.sp.zmap i).toNat * 8 + ln / 8
      let nz := !decide (natOfBytes (data.take 8) = 0)
      match c.setMapBit byte (ln % 8) nz with
      | none =>
        let c1 : Core := { c with f := { c.f with spad := c.f.spad.noteUe (byte / 8) } }
        reply ((c1.notice (.spadUe (byte / 8 * 8))).bump (cntPerf 9) 1) 1
      | some c1 =>
        let c2 := if nz then (c1.routerWrite off (zrExpand (if wide then 2 else 1) data)).bump (cntSp 6) 1
                  else c1.bump (cntSp 7) 1
        reply c2 0

end Sys2Proof.Machine
end

