-- ==== Sys2Proof/Machine/Fp.lean ====
section
/-! DEFINITION. Number formats (chapter 02): decoding a pattern to an exact value, one rounding function to every
format, and the FP32 arithmetic of the vector unit and the array. -/
namespace Sys2Proof.Machine

/-- An exact value: NaN, a signed infinity, or m · 2^e. -/
inductive FVal where
  | nan
  | inf (neg : Bool)
  | fin (m : Int) (e : Int)
  deriving DecidableEq, Repr

/-- A floating-point layout (Table 02.2): fraction width, exponent width, bias, and whether Emax holds infinities. -/
structure FFmt where
  f : Nat
  ew : Nat
  bias : Int
  hasInf : Bool
  deriving DecidableEq, Repr

/-- FP32 (Table 02.2). -/
def fp32 : FFmt := ⟨23, 8, 127, true⟩
/-- FP16 (Table 02.2). -/
def fp16 : FFmt := ⟨10, 5, 15, true⟩
/-- BF16 (Table 02.2). -/
def bf16 : FFmt := ⟨7, 8, 127, true⟩
/-- FP8 E5M2 (Table 02.2). -/
def e5m2 : FFmt := ⟨2, 5, 15, true⟩
/-- FP8 E4M3 (Table 02.2, R34). -/
def e4m3 : FFmt := ⟨3, 4, 7, false⟩

/-- The all-ones exponent. -/
def FFmt.emax (q : FFmt) : Nat := 2 ^ q.ew - 1
/-- The pattern of +∞ (Table 02.3); for E4M3 its NaN. -/
def FFmt.infCode (q : FFmt) : Nat := if q.hasInf then q.emax * 2 ^ q.f else q.emax * 2 ^ q.f + 2 ^ q.f - 1
/-- The canonical NaN (Table 02.3). -/
def FFmt.nanCode (q : FFmt) : Nat :=
  if q.hasInf then q.emax * 2 ^ q.f + 2 ^ (q.f - 1) else q.emax * 2 ^ q.f + 2 ^ q.f - 1
/-- The largest finite pattern (Table 02.3). -/
def FFmt.maxCode (q : FFmt) : Nat := q.infCode - 1
/-- The pattern of the sign bit. -/
def FFmt.signCode (q : FFmt) : Nat := 2 ^ (q.f + q.ew)

/-- The value of a pattern (R33, R34). -/
def FFmt.decode (q : FFmt) (x : Nat) : FVal :=
  let F := x % 2 ^ q.f
  let E := x / 2 ^ q.f % 2 ^ q.ew
  let neg := x / q.signCode % 2 = 1
  let sgn : Int := if neg then -1 else 1
  if E = q.emax ∧ q.hasInf then (if F = 0 then .inf neg else .nan)
  else if ¬ q.hasInf ∧ E = q.emax ∧ F = 2 ^ q.f - 1 then .nan
  else if E = 0 then .fin (sgn * F) (1 - q.bias - q.f)
  else .fin (sgn * (2 ^ q.f + F : Nat)) (E - q.bias - q.f)

/-- The rounding modes of Table 02.6. -/
inductive Rm where
  | rne | rna | rtz | rdn | rup
  deriving DecidableEq, Repr

/-- The mode of an RM code (R50). -/
def rmOf : Nat → Rm
  | 0 => .rne | 1 => .rna | 2 => .rtz | 3 => .rdn | _ => .rup

/-- n · 2^−k rounded to a whole number by mode, the sign given apart (Table 02.6). -/
def roundShift (rm : Rm) (neg : Bool) (n k : Nat) : Nat :=
  let q := n >>> k
  let r := n - (q <<< k)
  if r = 0 then q
  else
    match rm with
    | .rne => if 2 * r > 2 ^ k ∨ (2 * r = 2 ^ k ∧ q % 2 = 1) then q + 1 else q
    | .rna => if 2 * r ≥ 2 ^ k then q + 1 else q
    | .rtz => q
    | .rdn => if neg then q + 1 else q
    | .rup => if neg then q else q + 1

/-- m · 2^e rounded to a whole number by mode. -/
def roundInt (rm : Rm) (m e : Int) : Int :=
  if e ≥ 0 then m * 2 ^ e.toNat
  else
    let r : Int := roundShift rm (decide (m < 0)) m.natAbs (-e).toNat
    if m < 0 then -r else r

/-- What a rounding to a format gave: the pattern, and whether a finite input overflowed. -/
structure Rounded where
  code : Nat
  big : Bool
  deriving DecidableEq, Repr

/-- m · 2^e in a format: one rounding by rm; overflow by OVF (R38, R50, R51, Table 02.7). -/
def FFmt.round (q : FFmt) (rm : Rm) (ovf : Bool) (m e : Int) : Rounded :=
  if m = 0 then ⟨0, false⟩
  else
    let neg := decide (m < 0)
    let a := m.natAbs
    let top : Int := Nat.log2 a + e
    let emin : Int := 1 - q.bias
    let k : Nat := (top - emin).toNat
    let quant : Int := emin + k - q.f
    let n := if e ≥ quant then a <<< (e - quant).toNat else roundShift rm neg a (quant - e).toNat
    let code := k * 2 ^ q.f + n
    let s := if neg then q.signCode else 0
    if code = 0 then ⟨0, false⟩
    else if code ≤ q.maxCode then ⟨code + s, false⟩
    else
      let toInf := match rm with
        | .rne | .rna => true
        | .rtz => false
        | .rdn => neg
        | .rup => !neg
      if ovf && toInf then ⟨if q.hasInf then q.infCode + s else q.nanCode, true⟩
      else ⟨q.maxCode + s, true⟩

/-- A value in a format: infinities and NaN by Table 02.3 and Table 02.7. -/
def FFmt.encode (q : FFmt) (rm : Rm) (ovf : Bool) : FVal → Rounded
  | .nan => ⟨q.nanCode, false⟩
  | .inf neg =>
    let s := if neg then q.signCode else 0
    if q.hasInf then ⟨q.infCode + s, false⟩
    else if ovf then ⟨q.nanCode, false⟩ else ⟨q.maxCode + s, true⟩
  | .fin m e => q.round rm ovf m e

/-- The sum of two exact values. -/
def FVal.add : FVal → FVal → FVal
  | .nan, _ => .nan
  | _, .nan => .nan
  | .inf a, .inf b => if a = b then .inf a else .nan
  | .inf a, .fin _ _ => .inf a
  | .fin _ _, .inf b => .inf b
  | .fin m e, .fin m' e' =>
    let lo := min e e'
    .fin (m * 2 ^ (e - lo).toNat + m' * 2 ^ (e' - lo).toNat) lo

/-- The product of two exact values. -/
def FVal.mul : FVal → FVal → FVal
  | .nan, _ => .nan
  | _, .nan => .nan
  | .inf a, .inf b => .inf (a != b)
  | .inf a, .fin m _ => if m = 0 then .nan else .inf (a != decide (m < 0))
  | .fin m _, .inf b => if m = 0 then .nan else .inf (b != decide (m < 0))
  | .fin m e, .fin m' e' => .fin (m * m') (e + e')

/-- The negated value. -/
def FVal.neg : FVal → FVal
  | .nan => .nan
  | .inf a => .inf (!a)
  | .fin m e => .fin (-m) e

/-- Whether the value is NaN. -/
def FVal.isNan : FVal → Bool
  | .nan => true
  | _ => false

/-- a < b of two values that are not NaN (R47: −0 equals +0). -/
def FVal.lt : FVal → FVal → Bool
  | .nan, _ => false
  | _, .nan => false
  | .inf a, .inf b => a && !b
  | .inf a, .fin _ _ => a
  | .fin _ _, .inf b => !b
  | .fin m e, .fin m' e' =>
    let lo := min e e'
    decide (m * 2 ^ (e - lo).toNat < m' * 2 ^ (e' - lo).toNat)

/-- The FP32 value of a word. -/
def f32 (x : Word) : FVal := fp32.decode x.toNat

/-- A value rounded to an FP32 word, nearest-even, IEEE overflow (R46, R38, R39). -/
def toF32 (v : FVal) : Word := BitVec.ofNat 32 (fp32.encode .rne true v).code

/-- FP32 addition (R46). -/
def fadd (a b : Word) : Word := toF32 ((f32 a).add (f32 b))
/-- FP32 subtraction (R46). -/
def fsub (a b : Word) : Word := toF32 ((f32 a).add (f32 b).neg)
/-- FP32 multiplication (R46). -/
def fmul (a b : Word) : Word := toF32 ((f32 a).mul (f32 b))
/-- FP32 fused multiply-add c + a · b, one rounding (R46). -/
def ffma (c a b : Word) : Word := toF32 ((f32 c).add ((f32 a).mul (f32 b)))

/-- FP32 minimum of two lanes (R47, R38). -/
def fmin (a b : Word) : Word :=
  match f32 a, f32 b with
  | .nan, y => toF32 y
  | x, .nan => toF32 x
  | x, y => if y.lt x then toF32 y else toF32 x

/-- FP32 maximum of two lanes (R47, R38). -/
def fmax (a b : Word) : Word :=
  match f32 a, f32 b with
  | .nan, y => toF32 y
  | x, .nan => toF32 x
  | x, y => if x.lt y then toF32 y else toF32 x

/-- FP32 absolute value (R75). -/
def fabs (a : Word) : Word :=
  match f32 a with
  | .nan => toF32 .nan
  | .inf _ => toF32 (.inf false)
  | .fin m e => toF32 (.fin m.natAbs e)

/-- Whether an FP32 word is NaN. -/
def isNan32 (x : Word) : Bool := (f32 x).isNan

/-- The FP format of a format code of Table 02.1; none for the integer formats and BS8. -/
def ffmtOf : Nat → Option FFmt
  | 5 => some e4m3
  | 6 => some e5m2
  | 7 => some fp16
  | 8 => some bf16
  | 9 => some fp32
  | _ => none

/-- The width in bits of a format code's element (Table 02.1); 0 for BS8 and reserved codes. -/
def fmtWidth : Nat → Nat
  | 0 => 4
  | 1 => 8
  | 2 => 8
  | 3 => 16
  | 4 => 32
  | 5 => 8
  | 6 => 8
  | 7 => 16
  | 8 => 16
  | 9 => 32
  | _ => 0

/-- The bounds of an integer format (R31). -/
def intBounds : Nat → Int × Int
  | 0 => (-8, 7)
  | 1 => (-128, 127)
  | 2 => (0, 255)
  | 3 => (-32768, 32767)
  | _ => (-2147483648, 2147483647)

/-- The integer a pattern of an integer format spells (R31). -/
def intOf (fmt : Nat) (x : Nat) : Int :=
  let w := fmtWidth fmt
  if fmt ≠ 2 ∧ x % 2 ^ w ≥ 2 ^ (w - 1) then (x % 2 ^ w : Nat) - (2 ^ w : Nat) else (x % 2 ^ w : Nat)

/-- An integer held within the bounds of a format, with whether it lay beyond them (R52). -/
def clampInt (fmt : Nat) (v : Int) : Int × Bool :=
  let (lo, hi) := intBounds fmt
  if v < lo then (lo, true) else if v > hi then (hi, true) else (v, false)

/-- The two's complement pattern of width w. -/
def patOf (w : Nat) (v : Int) : Nat := (v % (2 ^ w : Nat)).toNat

end Sys2Proof.Machine
end

