-- ==== Sys2Proof/Machine/Vector.lean ====
section
/-! DEFINITION. The operations of the vector instructions (R75 to R79) and VCVT (R48 to R54). -/
namespace Sys2Proof.Machine

/-- The lane width of a vector TYPE (R75). -/
def typeWidth (ty : BitVec 3) : Nat :=
  match ty.toNat with
  | 0 => 8 | 1 => 8 | 2 => 16 | _ => 32

/-- Whether the TYPE is signed: UINT8 is not (R75). -/
def typeSigned (ty : BitVec 3) : Bool := !decide (ty = 1)

/-- A lane as the integer it spells. -/
def laneInt (sgn : Bool) (x : BitVec w) : Int := if sgn then x.toInt else x.toNat

/-- An integer held within a lane's bounds (R75). -/
def satLane (w : Nat) (sgn : Bool) (v : Int) : BitVec w :=
  if sgn then
    (if v < -(2 ^ (w - 1) : Nat) then BitVec.ofInt w (-(2 ^ (w - 1) : Nat))
     else if (2 ^ (w - 1) : Nat) ≤ v then BitVec.ofNat w (2 ^ (w - 1) - 1) else BitVec.ofInt w v)
  else (if v < 0 then 0 else if (2 ^ w : Nat) ≤ v then BitVec.allOnes w else BitVec.ofInt w v)

/-- One integer lane of a vector function: old is the lane of Vd (R75). -/
def vLaneInt (f : VFn) (sgn : Bool) (old a b : BitVec w) : BitVec w :=
  match f with
  | .add => a + b
  | .sub => a - b
  | .mul => a * b
  | .fma => old + a * b
  | .min => if laneInt sgn a ≤ laneInt sgn b then a else b
  | .max => if laneInt sgn a ≤ laneInt sgn b then b else a
  | .and => a &&& b
  | .or => a ||| b
  | .xor => a ^^^ b
  | .shl => a <<< b.toNat
  | .shr => if sgn then a.sshiftRight b.toNat else a >>> b.toNat
  | .sel => (a &&& old) ||| (b &&& ~~~old)
  | .abs => if sgn && a.msb then -a else a
  | .adds => satLane w sgn (laneInt sgn a + laneInt sgn b)
  | .subs => satLane w sgn (laneInt sgn a - laneInt sgn b)

/-- One FP32 lane of a vector function (R46, R47, R75); the shifts and saturating forms do not reach it. -/
def vLaneFp (f : VFn) (old a b : Word) : Word :=
  match f with
  | .add => fadd a b
  | .sub => fsub a b
  | .mul => fmul a b
  | .fma => ffma old a b
  | .min => fmin a b
  | .max => fmax a b
  | .and => a &&& b
  | .or => a ||| b
  | .xor => a ^^^ b
  | .sel => (a &&& old) ||| (b &&& ~~~old)
  | .abs => fabs a
  | .shl | .shr | .adds | .subs => a

/-- Whether a vector function is a tensor operation whose NaN results count (R41, R75). -/
def vfnTensor : VFn → Bool
  | .and | .or | .xor | .sel => false
  | _ => true

/-- The lanes of a vector function (R75). -/
def vResult (f : VFn) (ty : BitVec 3) (old a b : BitVec 512) : BitVec 512 :=
  match ty.toNat with
  | 4 => ofLanes 512 32 16 fun i => vLaneFp f (lane 32 old i) (lane 32 a i) (lane 32 b i)
  | 0 => ofLanes 512 8 64 fun i => vLaneInt f true (lane 8 old i) (lane 8 a i) (lane 8 b i)
  | 1 => ofLanes 512 8 64 fun i => vLaneInt f false (lane 8 old i) (lane 8 a i) (lane 8 b i)
  | 2 => ofLanes 512 16 32 fun i => vLaneInt f true (lane 16 old i) (lane 16 a i) (lane 16 b i)
  | _ => ofLanes 512 32 16 fun i => vLaneInt f true (lane 32 old i) (lane 32 a i) (lane 32 b i)

/-- The number of FP32 lanes that hold NaN. -/
def nanLanes (x : BitVec 512) : Nat := ((List.range 16).filter fun i => isNan32 (lane 32 x i)).length

/-- FMT_NAN and FMT_SAT raised (R41, Table 21.5). -/
def Core.countFmt (c : Core) (nan sat : Nat) : Core :=
  let c1 := if nan = 0 then c else c.bump (cntPerf 12) nan
  if sat = 0 then c1 else c1.bump (cntPerf 13) sat

/-- VADD to VSUBS (R75, R76). -/
def opVop (t : Nat) (f : VFn) (vd va vb : BitVec 5) (ty : BitVec 3) (c : Core) : Res Core :=
  let th := c.th t
  let r := vResult f ty (th.rv vd) (th.rv va) (th.rv vb)
  (c.countFmt (if ty = 4 ∧ vfnTensor f then nanLanes r else 0) 0).thOp t fun y => y.wv vd r

/-- The comparison CC of two integer lanes (Table 03.8). -/
def ccInt (cc : BitVec 3) (a b : Int) : Bool :=
  match cc.toNat with
  | 0 => decide (a = b) | 1 => decide (a ≠ b) | 2 => decide (a < b) | 3 => decide (a ≤ b) | 4 => decide (b < a)
  | _ => decide (b ≤ a)

/-- The comparison CC of two FP32 lanes: with a NaN only NE holds (R47). -/
def ccFp (cc : BitVec 3) (a b : Word) : Bool :=
  let x := f32 a
  let y := f32 b
  if x.isNan || y.isNan then decide (cc = 1)
  else match cc.toNat with
    | 0 => !x.lt y && !y.lt x
    | 1 => x.lt y || y.lt x
    | 2 => x.lt y
    | 3 => !y.lt x
    | 4 => y.lt x
    | _ => !x.lt y

/-- The comparison of lane i (R76). -/
def vcmpLane (cc ty : BitVec 3) (a b : BitVec 512) (i : Nat) : Bool :=
  match ty.toNat with
  | 4 => ccFp cc (lane 32 a i) (lane 32 b i)
  | 0 => ccInt cc (lane 8 a i).toInt (lane 8 b i).toInt
  | 1 => ccInt cc (lane 8 a i).toNat (lane 8 b i).toNat
  | 2 => ccInt cc (lane 16 a i).toInt (lane 16 b i).toInt
  | _ => ccInt cc (lane 32 a i).toInt (lane 32 b i).toInt

/-- The lanes of a TYPE (R75). -/
def typeLanes (ty : BitVec 3) : Nat := 512 / typeWidth ty

/-- VCMP's mask (R76). -/
def vcmpResult (cc ty : BitVec 3) (a b : BitVec 512) : BitVec 512 :=
  ofLanes 512 (typeWidth ty) (typeLanes ty) fun i => if vcmpLane cc ty a b i then BitVec.allOnes _ else 0

/-- VCMP (R76); flags of Table 03.4 with S = 1. -/
def opVcmp (t : Nat) (vd va vb : BitVec 5) (cc : BitVec 3) (s : Bool) (ty : BitVec 3) (c : Core) : Res Core :=
  c.thOp t fun th =>
    let hit := (List.range (typeLanes ty)).map (vcmpLane cc ty (th.rv va) (th.rv vb))
    (th.wv vd (vcmpResult cc ty (th.rv va) (th.rv vb))).flagsIf s
      (mkFlags (hit.all id) (!hit.any id) false false)

/-- VBCAST: Ga's low lane bits in every lane (R80). -/
def opVbcast (t : Nat) (vd ga : BitVec 5) (ty : BitVec 3) (c : Core) : Res Core :=
  c.thOp t fun th =>
    th.wv vd (ofLanes 512 (typeWidth ty) (typeLanes ty) fun _ => (th.rg ga).setWidth (typeWidth ty))

/-- VEXT: a lane to Gd, sign-extended for INT8 and INT16, zero-extended for UINT8 (R80). -/
def opVext (t : Nat) (gd va : BitVec 5) (ln : BitVec 6) (ty : BitVec 3) (c : Core) : Res Core :=
  c.thOp t fun th =>
    let x := lane (typeWidth ty) (th.rv va) ln.toNat
    th.wg gd (if ty = 1 then x.setWidth 32 else x.signExtend 32)

/-- VINS: Ga into a lane (R80). -/
def opVins (t : Nat) (vd ga : BitVec 5) (ln : BitVec 6) (ty : BitVec 3) (c : Core) : Res Core :=
  c.thOp t fun th =>
    th.wv vd (setLane (typeWidth ty) (th.rv vd) ln.toNat ((th.rg ga).setWidth (typeWidth ty)))

/-- Adjacent pairs combined, repeatedly, k times (R77). -/
def pairTree (f : Word → Word → Word) : Nat → List Word → List Word
  | 0, xs => xs
  | k + 1, xs => pairTree f k (pairs f xs)
where
  /-- Adjacent pairs combined once. -/
  pairs (f : Word → Word → Word) : List Word → List Word
    | a :: b :: xs => f a b :: pairs f xs
    | xs => xs

/-- The lanes of an integer TYPE widened to INT32 (R77). -/
def wideLanes (ty : BitVec 3) (a : BitVec 512) : List Word :=
  (List.range (typeLanes ty)).map fun i =>
    let x := lane (typeWidth ty) a i
    if ty = 1 then x.setWidth 32 else x.signExtend 32

/-- A reduction's value (R77). -/
def vredValue (f : VRed) (ty : BitVec 3) (a : BitVec 512) : Word :=
  if ty = 4 then
    let xs := (List.range 16).map (lane 32 a)
    let g := match f with | .sum => fadd | .max => fmax | .min => fmin
    (pairTree g 4 xs).headD 0
  else
    let xs := wideLanes ty a
    match f with
    | .sum => xs.foldl (· + ·) 0
    | .max => xs.foldl (fun m x => if m.toInt < x.toInt then x else m) (xs.headD 0)
    | .min => xs.foldl (fun m x => if x.toInt < m.toInt then x else m) (xs.headD 0)

/-- VREDSUM, VREDMAX, VREDMIN: the value in [31:0] of Vd, the rest zero (R77). -/
def opVred (t : Nat) (f : VRed) (vd va : BitVec 5) (ty : BitVec 3) (c : Core) : Res Core :=
  let r := vredValue f ty ((c.th t).rv va)
  (c.countFmt (if ty = 4 ∧ isNan32 r then 1 else 0) 0).thOp t fun th => th.wv vd (r.setWidth 512)

/-- One lane of a VMACD (R78): 16 lanes of Vd. -/
def vmacdLane (ty : BitVec 2) (old : Word) (a b : BitVec 512) (i : Nat) : Word :=
  match ty.toNat with
  | 0 => ffma old (lane 32 a i) (lane 32 b i)
  | 1 => old + BitVec.ofInt 32 ((lane 16 a (2 * i)).toInt * (lane 16 b (2 * i)).toInt
      + (lane 16 a (2 * i + 1)).toInt * (lane 16 b (2 * i + 1)).toInt)
  | 2 => old + BitVec.ofInt 32 (((List.range 4).map fun j =>
      (lane 8 a (4 * i + j)).toInt * (lane 8 b (4 * i + j)).toInt).foldl (· + ·) 0)
  | _ => old + BitVec.ofInt 32 (((List.range 4).map fun j =>
      ((lane 8 a (4 * i + j)).toNat : Int) * (lane 8 b (4 * i + j)).toInt).foldl (· + ·) 0)

/-- VMACD's result (R78). -/
def vmacdResult (ty : BitVec 2) (z : Bool) (old : BitVec 512) (x y : List Byte) : BitVec 512 :=
  let a := BitVec.ofNat 512 (natOfBytes x)
  let b := BitVec.ofNat 512 (natOfBytes y)
  ofLanes 512 32 16 fun i => vmacdLane ty (if z then 0 else lane 32 old i) a b i

/-- VMACD (R78); an F32 form counts the NaN lanes it writes (R41). -/
def opVmacd (e : Env) (t : Nat) (vd : BitVec 5) (z p : Bool) (ty : BitVec 2) (c : Core) : Res Core :=
  match opMac e t p 64 (fun x y th => th.wv vd (vmacdResult ty z (th.rv vd) x y)) c with
  | .ok c' => .ok (if ty = 0 then c'.countFmt (nanLanes ((c'.th t).rv vd)) 0 else c')
  | r => r

/-! ## VCVT -/

/-- A converted element: its pattern, and whether it counts in FMT_NAN and in FMT_SAT. -/
structure Conv where
  code : Nat
  nan : Bool := false
  sat : Bool := false
  deriving DecidableEq, Repr

/-- The exact value of an element of a format other than BS8. -/
def elemVal (fmt x : Nat) : FVal :=
  match ffmtOf fmt with
  | some q => q.decode x
  | none => .fin (intOf fmt x) 0

/-- A value converted to an integer format (R52). -/
def toIntFmt (dst : Nat) (rm : Rm) : FVal → Conv
  | .nan => ⟨0, false, true⟩
  | .inf neg => let (lo, hi) := intBounds dst; ⟨patOf (fmtWidth dst) (if neg then lo else hi), false, true⟩
  | .fin m e => let (v, s) := clampInt dst (roundInt rm m e); ⟨patOf (fmtWidth dst) v, false, s⟩

/-- One element converted (R48, R50 to R52); FMT_SAT under OVF 0 only, for a floating-point destination (R41). -/
def convElem (src dst : Nat) (rm : Rm) (ovf : Bool) (x : Nat) : Conv :=
  let v := elemVal src x
  match ffmtOf dst with
  | none => toIntFmt dst rm v
  | some q =>
    let r := q.encode rm ovf v
    ⟨r.code, (q.decode r.code).isNan, r.big && !ovf⟩

/-- The elements converted by a VCVT that involves no BS8: source element s i gives destination element d i (R49). -/
def vcvtPlan (src dst part : Nat) : List (Nat × Nat) :=
  let ws := fmtWidth src
  let wd := fmtWidth dst
  let n := 512 / max ws wd
  (List.range n).map fun i => if wd < ws then (i, part * n + i) else if ws < wd then (part * n + i, i) else (i, i)

/-- VCVT between formats other than BS8: destination elements not named keep their values (R49). -/
def vcvtPlain (src dst part : Nat) (rm : Rm) (ovf : Bool) (old a : BitVec 512) : BitVec 512 × Nat × Nat :=
  (vcvtPlan src dst part).foldl (init := (old, 0, 0)) fun (acc, nan, sat) (i, j) =>
    let r := convElem src dst rm ovf (lane (fmtWidth src) a i).toNat
    (setLane (fmtWidth dst) acc j (BitVec.ofNat (fmtWidth dst) r.code), nan + b2n r.nan, sat + b2n r.sat)

/-- The larger of two magnitudes m · 2^e, as exact values (R53). -/
def magMax (a b : FVal) : FVal := if a.lt b then b else a

/-- FP32 to BS8: the exponent and the sixteen significands, with the counts for FMT_NAN and FMT_SAT (R53). -/
def toBs8 (rm : Rm) (ovf : Bool) (a : BitVec 512) : Nat × List Int × Nat × Nat :=
  let xs := (List.range 16).map fun i => f32 (lane 32 a i)
  let anyInf := xs.any fun x => match x with | .inf _ => true | _ => false
  if xs.any FVal.isNan || (anyInf && ovf) then (255, List.replicate 16 0, 1, 0)
  else
    let big : Option Int := xs.foldl (fun b x => match x with
      | .fin m e =>
        if m = 0 then b else
          let top : Int := Nat.log2 m.natAbs + e
          match b with | none => some top | some y => some (if y < top then top else y)
      | _ => b) none
    let e : Option Nat := if anyInf then some 254 else big.map fun y => (y + 127).toNat
    match e with
    | none => (0, List.replicate 16 0, 0, 0)
    | some e =>
      let ss := xs.map fun x => match x with
        | .inf neg => ((if neg then -127 else 127 : Int), true)
        | .fin m ex =>
          let r := roundInt rm m (ex + 133 - e)
          if 127 < r then (127, true) else if r < -127 then (-127, true) else (r, false)
        | .nan => (0, false)
      (e, ss.map Prod.fst, 0, (ss.filter Prod.snd).length)

/-- VCVT to BS8: significand k at byte k, the exponent at byte 16, the rest zero (R49). -/
def vcvtToBs8 (rm : Rm) (ovf : Bool) (a : BitVec 512) : BitVec 512 × Nat × Nat :=
  let (e, ss, nan, sat) := toBs8 rm ovf a
  (BitVec.ofNat 512 (natOfBytes (ss.map (BitVec.ofInt 8) ++ [BitVec.ofNat 8 e])), nan, sat)

/-- The value of a BS8 element (R35). -/
def bs8Val (e : Nat) (s : Int) : FVal := if e = 255 then .nan else .fin s (e - 133)

/-- VCVT from BS8 to FP32 (R49): exact. -/
def vcvtFromBs8 (a : BitVec 512) : BitVec 512 × Nat × Nat :=
  let e := (lane 8 a 16).toNat
  (ofLanes 512 32 16 fun i => toF32 (bs8Val e (lane 8 a i).toInt), if e = 255 then 16 else 0, 0)

/-- VCVT's register result with the counts for FMT_NAN and FMT_SAT (R48 to R54). -/
def vcvtResult (src dst part : Nat) (rm : Rm) (ovf : Bool) (old a : BitVec 512) : BitVec 512 × Nat × Nat :=
  if dst = 10 then vcvtToBs8 rm ovf a
  else if src = 10 then vcvtFromBs8 a
  else vcvtPlain src dst part rm ovf old a

/-- VCVT (R79). -/
def opVcvt (t : Nat) (vd va : BitVec 5) (src dst : BitVec 4) (part : BitVec 2) (rm : BitVec 3) (ovf : Bool) (c : Core) : Res Core :=
  let r := vcvtResult src.toNat dst.toNat part.toNat (rmOf rm.toNat) ovf ((c.th t).rv vd) ((c.th t).rv va)
  (c.countFmt r.2.1 r.2.2).thOp t fun th => th.wv vd r.1

end Sys2Proof.Machine
end

