-- ==== Sys2Proof/Machine/Matrix.lean ====
section
/-! DEFINITION. The matrix unit (chapter 07), its sparse forms (R173 to R182) and the checksum of duplicate execution (R431,
R432). -/
namespace Sys2Proof.Machine

/-! ## Tiles and accumulators -/

/-- Tile i. -/
def Core.tile (c : Core) (i : Nat) : Tile := sget {} c.f.mx.tiles i
/-- The core with its matrix unit changed. -/
def Core.modMx (c : Core) (g : Matrix → Matrix) : Core := { c with f := { c.f with mx := g c.f.mx } }
/-- The core with tile i replaced. -/
def Core.setTile (c : Core) (i : Nat) (x : Tile) : Core := c.modMx fun m => { m with tiles := sset {} m.tiles i x }
/-- Accumulator i. -/
def Core.acc (c : Core) (i : Nat) : Acc := sget {} c.f.mx.accs i
/-- The core with accumulator i replaced. -/
def Core.setAcc (c : Core) (i : Nat) (x : Acc) : Core := c.modMx fun m => { m with accs := sset {} m.accs i x }

/-- Operand classes of Table 02.4. -/
inductive MmaClass where
  | int | fp8 | bs8 | f16
  deriving DecidableEq, Repr

/-- The class of a tile format (Table 02.4, Table 07.1). -/
def classOf (fmt : Nat) : Option MmaClass :=
  match fmt with
  | 0 => some .int | 1 => some .int | 2 => some .int
  | 5 => some .fp8 | 6 => some .fp8
  | 7 => some .f16 | 8 => some .f16
  | 10 => some .bs8
  | _ => none

/-- Element bytes in the tile (Table 07.1). -/
def Tile.eb (x : Tile) : Nat := if x.fmt = 7 ∨ x.fmt = 8 then 2 else 1
/-- Rows of a tile (R145). -/
def Tile.rows (x : Tile) : Nat := if x.shape then 16 else 8
/-- k-steps per lane of a dense tile (Table 07.1). -/
def Tile.k (x : Tile) : Nat := x.rows * 8 / x.eb
/-- First byte of column n by LAYOUT (R145, Table 08.1). -/
def Tile.col (x : Tile) (n : Nat) : Nat :=
  match x.layout.toNat with
  | 1 => 64 * n
  | 2 => 32 * n
  | _ => 8 * x.rows * n
/-- Compressed elements a column holds (Table 08.1). -/
def Tile.capacity (x : Tile) : Nat :=
  match x.layout.toNat with
  | 1 => 64 / x.eb
  | 2 => 32 / x.eb
  | _ => 8 * x.rows / x.eb
/-- Element i of column n, as its bit pattern. -/
def Tile.elem (x : Tile) (n i : Nat) : Nat :=
  if x.eb = 2 then (lane 16 x.data (x.col n / 2 + i)).toNat else (lane 8 x.data (x.col n + i)).toNat
/-- Byte q of a tile's rows. -/
def Tile.byte (x : Tile) (q : Nat) : Nat := (lane 8 x.data q).toNat
/-- The exponent of BS8 block g of lane l (R145). -/
def Tile.expo (x : Tile) (l g : Nat) : Nat := (lane 8 x.side (8 * l + g)).toNat
/-- The integer an 8-bit operand spells (R31). -/
def Tile.elemInt (x : Tile) (n i : Nat) : Int :=
  if x.fmt = 2 then (x.elem n i : Int) else (BitVec.ofNat 8 (x.elem n i)).toInt
/-- The value of a floating-point operand. -/
def Tile.elemF (x : Tile) (n i : Nat) : FVal := elemVal x.fmt.toNat (x.elem n i)

/-! ## The arithmetic of an MMA -/

/-- The code of compressed element c of column n (R175). -/
def metaCode (m : Tile) (sp n c : Nat) : Nat :=
  let q := if sp = 1 then 64 * n + c / 4 else 32 * n + c / 4
  m.byte q / 4 ^ (c % 4) % 4

/-- The bitmap of column n: the k-steps whose bit is set, rising (R177). -/
def bitmapCol (m : Tile) (n k : Nat) : List Nat :=
  (List.range k).filter fun i => (m.byte (64 * n + i / 8)).testBit (i % 8)

/-- The products of column n, in order: index of TA's element in its lane, index of TB's element in its column (R159, R174, R177,
R181). -/
def mmaTerms (j : MmaJob) (n : Nat) : List (Nat × Nat) :=
  match j.sp.toNat with
  | 0 => (List.range j.a.k).map fun k => (k, k)
  | 1 => (List.range (j.a.k / 2)).map fun c => (4 * (c / 2) + metaCode j.m 1 n c, c)
  | 2 => (List.range (j.a.k / 4)).map fun c => (4 * c + metaCode j.m 2 n c, c)
  | _ =>
    let ks := bitmapCol j.m n j.a.k
    ks.zip (List.range ks.length)

/-- An integer sum kept modulo 2^32, with the overflow flag (R43). -/
def intStep (acc : Int × Bool) (p : Int) : Int × Bool :=
  let s := acc.1 + p
  ((BitVec.ofInt 32 s).toInt, acc.2 || decide (s < -2 ^ 31 ∨ 2 ^ 31 ≤ s))

/-- One element of the result with the overflow it met: lane m of A, column n of B (R43 to R45, R181). -/
def mmaElem (j : MmaJob) (cls : MmaClass) (m n : Nat) (start : Word) : Word × Bool :=
  let ts := mmaTerms j n
  match cls with
  | .int =>
    let r := ts.foldl (fun acc (ka, kb) => intStep acc (j.a.elemInt m ka * j.b.elemInt n kb)) (start.toInt, false)
    (BitVec.ofInt 32 r.1, r.2)
  | .bs8 =>
    ((List.range (j.a.k / 16)).foldl (fun acc g =>
      let ea := j.a.expo m g
      let eb := j.b.expo n g
      if ea = 255 ∨ eb = 255 then toF32 .nan
      else
        let s := (List.range 16).foldl (fun z i =>
          z + (BitVec.ofNat 8 (j.a.elem m (16 * g + i))).toInt * (BitVec.ofNat 8 (j.b.elem n (16 * g + i))).toInt) 0
        toF32 ((f32 acc).add (.fin s ((ea : Int) + eb - 266)))) start, false)
  | _ => (ts.foldl (fun acc (ka, kb) => toF32 ((f32 acc).add ((j.a.elemF m ka).mul (j.b.elemF n kb)))) start, false)

/-- The class of an MMA's A operand. -/
def MmaJob.cls (j : MmaJob) : MmaClass := (classOf j.a.fmt.toNat).getD .int

/-- The contents an MMA gives an accumulator, with its overflow: second is the accumulator ACC + 1 of a 1:4 MMA (R174). -/
def mmaResult (j : MmaJob) (second : Bool) : BitVec 2048 × Bool :=
  let st := if second then j.start1 else j.start0
  let el := fun (i : Nat) => mmaElem j j.cls (i / 8) (i % 8 + if second then 8 else 0) (lane 32 st i)
  (ofLanes 2048 32 64 fun i => (el i).1, (List.range 64).any fun i => (el i).2)

/-- The checksum of an accumulator (R432). -/
def checksum (x : BitVec 2048) : DWord :=
  (List.range 64).foldl (fun s i => s + BitVec.ofNat 64 ((2 * i + 1) * (lane 32 x i).toNat)) 0

/-- Q of a bitmap MMA: the largest number of set bits of a column (R178). -/
def bitmapQ (m : Tile) (k : Nat) : Nat := (List.range 8).foldl (fun q n => max q (bitmapCol m n k).length) 0

/-- Array cycles of an MMA (R159, Tables 07.3, 08.2). -/
def MmaJob.cycles (j : MmaJob) : Nat :=
  let c := if j.cls = .f16 then 2 else 1
  match j.sp.toNat with
  | 0 => j.a.k * c
  | 3 => c * max (bitmapQ j.m j.a.k) 1
  | _ => 64

/-- Whether the MMA accepted at count n is sampled (R431). -/
def sampledAt (en : Bool) (s n : Nat) : Bool := en && decide (n % 2 ^ s = n / (64 * 2 ^ s) % 2 ^ s)

/-! ## Configuration -/

/-- The matrix unit is drained: no MMA accepted and unfinished, no TLD or TST in progress (R149). -/
def Core.drained (c : Core) : Bool := c.f.mx.queue.isEmpty && c.f.mv.isNone

/-- Whether a waiting TCFG or TFREE keeps the unit from accepting others: from the first cycle of its wait until it issues (R149). -/
def Core.mxBlocked (c : Core) : Bool := c.f.mx.tcfgWait

/-- A serialising matrix instruction: it waits until the unit is drained (R149). -/
def Core.serial (c : Core) (k : Core → Core) : Res Core :=
  if c.drained then .ok ((k c).modMx fun m => { m with tcfgWait := false })
  else .wait (c.modMx fun m => { m with tcfgWait := true }) 7

/-- TCFG (R148 to R150). -/
def opTcfg (target fmt : BitVec 4) (shape : BitVec 1) (layout : BitVec 3) (c : Core) : Res Core :=
  c.serial fun c =>
    if target.toNat ≤ 7 then
      let x := c.tile target.toNat
      let sh := decide (shape = 1)
      if x.fmt = fmt ∧ x.shape = sh ∧ x.layout = layout then c
      else c.setTile target.toNat { fmt := fmt, shape := sh, layout := layout }
    else
      let i := target.toNat - 8
      if (c.acc i).fmt = fmt then c else c.setAcc i { fmt := fmt }

/-- A tile zeroed, its configuration kept (R150). -/
def Tile.zero (x : Tile) : Tile := { fmt := x.fmt, shape := x.shape, layout := x.layout }
/-- An accumulator zeroed, its flags cleared, its format kept (R150, R163). -/
def Acc.zero (x : Acc) : Acc := { fmt := x.fmt }

/-- TFREE (R150). -/
def opTfree (tmask : BitVec 8) (amask : BitVec 4) (c : Core) : Res Core :=
  c.serial fun c =>
    let c1 := (bitsOf 8 tmask.toNat).foldl (fun c i => c.setTile i (c.tile i).zero) c
    (bitsOf 4 amask.toNat).foldl (fun c i => c.setAcc i (c.acc i).zero) c1

/-- Bit i of a mask for each index of a range that satisfies p. -/
def maskOf (n : Nat) (p : Nat → Bool) : Nat := (List.range n).foldl (fun m i => m + if p i then 2 ^ i else 0) 0

/-- MX_USE (Table 07.6). -/
def Core.mxUse (c : Core) : Word :=
  BitVec.ofNat 32 (maskOf 8 (fun i => (c.tile i).inUse) + 2 ^ 8 * maskOf 8 (fun i => (c.tile i).part.isSome)
    + 2 ^ 16 * maskOf 4 (fun i => (c.acc i).inUse) + 2 ^ 20 * maskOf 4 (fun i => (c.acc i).ovf)
    + 2 ^ 24 * maskOf 4 (fun i => (c.acc i).poison) + 2 ^ 28 * c.f.mx.queue.length
    + 2 ^ 30 * b2n c.f.mx.tcfgWait + 2 ^ 31 * b2n c.f.mx.check.isSome)

/-- MX_ERR (Table 07.6). -/
def Core.mxErr (c : Core) : Word := c.f.mx.tue ++ c.f.mx.tce
/-- MX_ACFG_a (Table 07.6). -/
def Core.mxAcfg (c : Core) (a : Nat) : Word := (c.acc a).fmt.setWidth 32
/-- MX_TCFG_t (Table 07.6). -/
def Core.mxTcfg (c : Core) (i : Nat) : Word :=
  let x := c.tile i
  BitVec.ofNat 32 (x.fmt.toNat + 2 ^ 4 * b2n x.shape + 2 ^ 5 * x.layout.toNat + 2 ^ 8 * (x.part.getD 0).toNat)

/-- The word MSTAT copies (R164). -/
def Core.mstat (c : Core) (sel : Nat) : Word :=
  if sel = 0 then c.mxUse
  else if sel = 1 then c.mxErr
  else if sel < 8 then c.mxAcfg (sel - 4)
  else c.mxTcfg (sel - 8)

/-- MSTAT (R164). -/
def opMstat (t : Nat) (gd : BitVec 5) (sel : BitVec 4) (c : Core) : Res Core :=
  if c.mxBlocked then .hold 7 else c.thOp t fun th => th.wg gd (c.mstat sel.toNat)

/-- The accumulators an MMA writes (R174). -/
def MmaJob.accs (j : MmaJob) : List Nat := if j.sp = 2 then [j.acc.toNat, j.acc.toNat + 1] else [j.acc.toNat]

/-- Whether an accepted, unfinished MMA targets an accumulator (R163). -/
def Core.accPending (c : Core) (i : Nat) : Bool := c.f.mx.queue.any fun j => decide (i ∈ j.accs)

/-- ACLR (R163). -/
def opAclr (amask : BitVec 4) (c : Core) : Res Core :=
  if (bitsOf 4 amask.toNat).any c.accPending then .hold 5
  else if c.mxBlocked then .hold 7
  else .ok ((bitsOf 4 amask.toNat).foldl (fun c i => c.setAcc i { c.acc i with ovf := false }) c)

/-- AZERO (R163). -/
def opAzero (amask : BitVec 4) (c : Core) : Res Core :=
  if (bitsOf 4 amask.toNat).any c.accPending then .hold 5
  else if c.mxBlocked then .hold 7
  else .ok ((bitsOf 4 amask.toNat).foldl (fun c i => c.setAcc i (c.acc i).zero) c)

/-- Cause 8 (Table 07.4). -/
def tileFault (pc : BitVec 17) (reason target : Nat) (operand : Bool) : FaultRec :=
  { cause := 8, spc := pc, sinfo := BitVec.ofNat 32 (reason + 16 * target + 256 * b2n operand) }

/-- AGET (R162): a POISON accumulator is a tile fault. -/
def opAget (t : Nat) (vd : BitVec 5) (acc pair : BitVec 2) (c : Core) : Res Core :=
  let a := acc.toNat
  if c.accPending a then .hold 5
  else if c.mxBlocked then .hold 7
  else if (c.acc a).poison then .fault c (tileFault (c.th t).pc 6 (8 + a) false)
  else c.thOp t fun th => th.wv vd (lane 512 (c.acc a).data pair.toNat)

/-- APUT (R162). -/
def opAput (t : Nat) (va : BitVec 5) (acc pair : BitVec 2) (c : Core) : Res Core :=
  let a := acc.toNat
  if c.accPending a then .hold 5
  else if c.mxBlocked then .hold 7
  else .ok (c.setAcc a { c.acc a with data := setLane 512 (c.acc a).data pair.toNat ((c.th t).rv va), inUse := true })

/-! ## Tile loads and stores -/

/-- Scratchpad bytes of one tile row (Table 07.2). -/
def Tile.rowBytes (x : Tile) : Nat := if x.fmt = 0 then 32 else if x.fmt = 10 then 68 else 64
/-- Alignment of one tile row (Table 07.2). -/
def Tile.rowAlign (x : Tile) : Nat := if x.fmt = 10 then 4 else 16

/-- Bytes of a list as a register. -/
def vecOfBytes (n : Nat) (bs : List Byte) : BitVec n := BitVec.ofNat n (natOfBytes bs)

/-- The tile with row r loaded (Table 07.2). -/
def Tile.loadRow (x : Tile) (r : Nat) (bs : List Byte) : Tile :=
  let clean := (List.range 8).foldl (fun e i => sset 0 e (8 * r + i) 0) x.err
  if x.fmt = 0 then
    let src : BitVec 256 := vecOfBytes 256 bs
    { x with data := setLane 512 x.data r (ofLanes 512 8 64 fun i => (lane 4 src i).signExtend 8), err := clean }
  else if x.fmt = 10 then
    let per := x.rows / 8
    let l := r / per
    let h := r % per
    let sig := (List.range 4).flatMap fun q => (bs.drop (17 * q + 1)).take 16
    let side := (List.range 4).foldl (fun s q => setLane 8 s (8 * l + 4 * h + q) (bs.getD (17 * q) 0)) x.side
    { x with data := setLane 512 x.data r (vecOfBytes 512 sig), side := side, err := clean }
  else { x with data := setLane 512 x.data r (vecOfBytes 512 bs), err := clean }

/-- The bytes of row r as TST stores them (Table 07.2). -/
def Tile.storeRow (x : Tile) (r : Nat) : List Byte :=
  let row := bytesOf 64 (lane 512 x.data r)
  if x.fmt = 0 then bytesOf 32 (ofLanes 256 4 64 fun i => (row.getD i 0).setWidth 4)
  else if x.fmt = 10 then
    let per := x.rows / 8
    (List.range 4).flatMap fun q =>
      lane 8 x.side (8 * (r / per) + 4 * (r % per) + q) :: (row.drop (16 * q)).take 16
  else row

/-- The error-protected words read with row r (R166). -/
def Tile.rowWords (x : Tile) (r : Nat) : List Nat :=
  (List.range 8).map (8 * r + ·) ++ (if x.fmt = 10 then [128 + r / (x.rows / 8)] else [])

/-- Tile-file errors counted: corrected ones, and uncorrectable ones, each of which sends a notice (R166). -/
def Core.countTile (c : Core) (ce ue : Nat) : Core :=
  let c1 := c.modMx fun m => { m with tce := satAdd m.tce ce, tue := satAdd m.tue ue }
  { c1 with t := { c1.t with notices := c1.t.notices ++ List.replicate ue .tileUe } }

/-- Words of a tile with a given error mark. -/
def Tile.marked (x : Tile) (ws : List Nat) (v : BitVec 2) : Nat := (ws.filter fun w => decide (sget 0 x.err w = v)).length

/-- A fault within a resumable instruction carries the point reached (R114). -/
def FaultRec.at (f : FaultRec) (unit done : Nat) : FaultRec :=
  { f with prog := ⟨BitVec.ofNat 16 done, BitVec.ofNat 4 unit, true⟩ }

/-- Thread t's progress register holding the point reached (R114). -/
def Core.atPoint (c : Core) (t unit done : Nat) : Core :=
  c.modTh t fun th => { th with prog := ⟨BitVec.ofNat 16 done, BitVec.ofNat 4 unit, true⟩ }

/-- A TLD or TST: its direction, tile, address generator, P and instruction word. -/
structure Move where
  load : Bool
  tile : Nat
  k : BitVec 2
  p : Bool
  word : Word

/-- The UNIT of a TLD or TST (Table 05.11). -/
def Move.unit (m : Move) : Nat := if m.load then 1 else 2
/-- Die cycles of a row (Table 07.2). -/
def Tile.rowCycles (x : Tile) : Nat := if x.fmt = 10 then 2 else 1

/-- Row r of a TLD (R151, R152, R155): the core past it; a fault or watchpoint stops at the row, the tile PARTIAL. -/
def Core.tldRow (c : Core) (t : Nat) (m : Move) (r : Nat) : Res Core :=
  let th := c.th t
  let a := th.rag m.k
  let x := c.tile m.tile
  let stop := fun (c : Core) => c.setTile m.tile { c.tile m.tile with part := some (BitVec.ofNat 4 r) }
  if a.illegal m.p then .fault (stop c) ((illegalAt th.pc m.word).at 1 r)
  else match th.agCheck a permRD x.rowBytes x.rowAlign with
    | some f => .fault (stop c) (f.at 1 r)
    | none =>
      match c.load t a.address.toNat x.rowBytes fun bs c' =>
        .ok ((c'.setTile m.tile (x.loadRow r bs)).modTh t fun y => y.postIf m.k m.p) with
      | .fault c' f => .fault (stop c') (f.at 1 r)
      | .watch c' j addr => .watch ((stop c').atPoint t 1 r) j addr
      | other => other

/-- Row r of a TST (R151, R152, R155, R166). -/
def Core.tstRow (c : Core) (t : Nat) (m : Move) (r : Nat) : Res Core :=
  let th := c.th t
  let a := th.rag m.k
  let x := c.tile m.tile
  if a.illegal m.p then .fault c ((illegalAt th.pc m.word).at 2 r)
  else match th.agCheck a permWR x.rowBytes x.rowAlign with
    | some f => .fault c (f.at 2 r)
    | none =>
      let ue := x.marked (x.rowWords r) 2
      let c0 := c.countTile (x.marked (x.rowWords r) 1) ue
      if ue ≠ 0 then .fault c0 ((tileFault th.pc 7 m.tile false).at 2 r)
      else match c0.store t a.address.toNat (x.storeRow r) fun c' => .ok (c'.modTh t fun y => y.postIf m.k m.p) with
        | .fault c' f => .fault c' (f.at 2 r)
        | .watch c' j addr => .watch (c'.atPoint t 2 r) j addr
        | other => other

/-- Row r of a TLD or TST. -/
def Core.moveRow (c : Core) (t : Nat) (m : Move) (r : Nat) : Res Core := if m.load then c.tldRow t m r else c.tstRow t m r

/-- The core once every row has moved: a TLD clears PARTIAL and sets IN_USE (R155). -/
def Core.moved (c : Core) (m : Move) : Core :=
  if m.load then c.setTile m.tile { c.tile m.tile with inUse := true, part := none } else c

/-- Rows r onward, n of them, in one step. -/
def moveRows (t : Nat) (m : Move) : Nat → Nat → Core → Res Core
  | 0, _, c => .ok (c.moved m)
  | n + 1, r, c =>
    match c.moveRow t m r with
    | .ok c' => moveRows t m n (r + 1) c'
    | other => other

/-- A TLD or TST in progress with r rows done, wait die cycles before its next row, its rows not yet moved tracked (R134, R153). -/
def Core.keepMove (c : Core) (t : Nat) (m : Move) (op : Op) (r wait : Nat) : Core :=
  let x := c.tile m.tile
  let run : Running :=
    { unit := BitVec.ofNat 4 m.unit, thread := BitVec.ofNat 2 t, stopped := false, level := c.levelOf t, op := op, word := m.word
      wait := wait
      lines := (agAddrs m.p (x.rows - r) ((c.th t).rag m.k)).map fun a => (a, x.rowBytes, !m.load) }
  ({ c with f := { c.f with mv := some run } } : Core).atPoint t m.unit r

/-- The end of a die cycle of a TLD or TST with r rows done: complete after the cycles of its last row (R153). -/
def Core.moveNext (c : Core) (t : Nat) (m : Move) (op : Op) (r wait : Nat) : Res Core :=
  if wait = 0 ∧ (c.tile m.tile).rows ≤ r then .ok (c.moved m) else .going (c.keepMove t m op r wait)

/-- One die cycle of a TLD or TST with r rows done (R153): a row, the tile readable four cycles after its last read, or the second
cycle of a row. -/
def Core.moveCycle (c : Core) (t : Nat) (m : Move) (op : Op) (r wait : Nat) : Res Core :=
  let c0 : Core := { c with f := { c.f with mv := none } }
  if wait ≠ 0 then c0.moveNext t m op r (wait - 1)
  else match c0.moveRow t m r with
    | .ok c1 =>
      let c2 := if m.load then c1.modMx fun x => { x with ready := sset 0 x.ready m.tile 3 } else c1
      c2.moveNext t m op (r + 1) ((c.tile m.tile).rowCycles - 1)
    | other => other

/-- A TLD or TST from row `start`, the rows its progress register counts as done (R115, R151 to R155): every row, or the first die
cycle's. -/
def Core.startMove (c : Core) (e : Env) (t : Nat) (m : Move) (op : Op) : Res Core :=
  let th := c.th t
  let start := if th.prog.valid then th.prog.progress.toNat else 0
  let R := (c.tile m.tile).rows
  if R ≤ start then c.illegal e t
  else if e.whole then moveRows t m (R - start) start c
  else c.moveCycle t m op start 0

/-- Whether an accepted MMA that has not started names a tile (R154). -/
def Core.namedWaiting (c : Core) (tile : BitVec 3) : Bool :=
  c.f.mx.queue.any fun j =>
    !j.started && (decide (j.ta = tile) || decide (j.tb = tile) || (!decide (j.sp = 0) && decide (j.tm = tile)))

/-- TLD (R151 to R155): it waits for MMAs accepted before that name the tile and have not started, and for a TLD or TST in progress. -/
def opTld (e : Env) (t : Nat) (tile : BitVec 3) (k : BitVec 2) (p : Bool) (c : Core) : Res Core :=
  if c.mxBlocked || c.namedWaiting tile || c.f.mv.isSome then .hold 7
  else c.startMove e t ⟨true, tile.toNat, k, p, e.word⟩ (.tld tile k p)

/-- TST (R151 to R155). -/
def opTst (e : Env) (t : Nat) (tile : BitVec 3) (k : BitVec 2) (p : Bool) (c : Core) : Res Core :=
  if c.mxBlocked || c.f.mv.isSome then .hold 7
  else c.startMove e t ⟨false, tile.toNat, k, p, e.word⟩ (.tst tile k p)

/-! ## MMA -/

/-- The first failing check of a dense MMA (R156): reason, target, operand. -/
def denseCheck (a b : Tile) (f : Acc) (acc ta tb : Nat) : Option (Nat × Nat × Bool) :=
  match classOf a.fmt.toNat, classOf b.fmt.toNat with
  | some ca, some cb =>
    if ca ≠ cb then some (1, ta, false)
    else if f.fmt.toNat ≠ (if ca = .int then 4 else 9) then some (2, 8 + acc, false)
    else if a.layout ≠ 0 then some (5, ta, false)
    else if b.layout ≠ 0 then some (5, tb, true)
    else if a.k ≠ b.k then some (3, ta, false)
    else if a.part.isSome then some (4, ta, false)
    else if b.part.isSome then some (4, tb, true)
    else none
  | _, _ => some (1, ta, false)

/-- The first failing check of a sparse MMA (R179). -/
def sparseCheck (a b m : Tile) (f f1 : Acc) (acc ta tb tm sp : Nat) : Option (Nat × Nat × Bool) :=
  match classOf a.fmt.toNat, classOf b.fmt.toNat with
  | some ca, some cb =>
    let want := if ca = .int then 4 else 9
    if ca ≠ cb then some (1, ta, false)
    else if f.fmt.toNat ≠ want then some (2, 8 + acc, false)
    else if sp = 2 ∧ acc < 3 ∧ f1.fmt.toNat ≠ want then some (2, 9 + acc, false)
    else if a.layout ≠ 0 then some (8, ta, false)
    else if b.layout.toNat ≠ sp then some (8, tb, true)
    else if m.layout ≠ 4 then some (8, tm, true)
    else if !a.shape then some (9, ta, false)
    else if sp = 2 ∧ acc % 2 = 1 then some (10, 8 + acc, false)
    else if a.part.isSome then some (4, ta, false)
    else if b.part.isSome then some (4, tb, true)
    else if m.part.isSome then some (4, tm, true)
    else if sp = 3 ∧ b.capacity < bitmapQ m a.k then some (11, tb, true)
    else none
  | _, _ => some (1, ta, false)

/-- MMA in its four forms (R156 to R158, R169, R174, R178, R179). -/
def opMma (e : Env) (t : Nat) (acc : BitVec 2) (ta tb : BitVec 3) (z : Bool) (sp : BitVec 2) (tm : BitVec 3) (c : Core) : Res Core :=
  let a := c.tile ta.toNat
  let b := c.tile tb.toNat
  let m := c.tile tm.toNat
  let bad := if sp = 0 then denseCheck a b (c.acc acc.toNat) acc.toNat ta.toNat tb.toNat
    else sparseCheck a b m (c.acc acc.toNat) (c.acc (acc.toNat + 1)) acc.toNat ta.toNat tb.toNat tm.toNat sp.toNat
  let n := c.f.mx.n
  let sampled := sampledAt c.t.checkEn c.t.checkS.toNat n
  if c.mxBlocked || decide (2 ≤ c.f.mx.queue.length) then .hold 7
  else match bad with
    | some (r, g, o) => .fault c (tileFault (c.th t).pc r g o)
    | none =>
      if sampled && !e.checkFree then .hold 7
      else
        let j : MmaJob := { acc := acc, ta := ta, tb := tb, tm := tm, z := z, sp := sp, n := n, sampled := sampled }
        let c1 := c.modMx fun x => { x with
          queue := x.queue ++ [j], n := n + 1,
          ccnt := if sampled then smod 0 x.ccnt 0 (· + 1) else x.ccnt }
        let c2 := if sampled then { c1 with t := { c1.t with reqs := c1.t.reqs ++ [.takeCheck j] } } else c1
        .ok (match sp.toNat with
          | 0 => c2
          | 3 => (c2.bump (cntSp 0) 1).bump (cntSp 1) (max (bitmapQ m a.k) 1)
          | _ => c2.bump (cntSp 2) 1)

/-- Whether the array is free for new work: no MMA started, no check work running (R158). -/
def Core.arrayFree (c : Core) : Bool :=
  !(c.f.mx.queue.any fun j => j.started) &&
  (match c.f.mx.check with
   | some b => !(decide (b.phase = .running) || decide (b.phase = .repeating))
   | none => true)

/-- Whether check work waits for the array: where it and a waiting MMA could both start, it starts first (R158, R168). -/
def Core.checkReady (c : Core) : Bool := c.f.mx.check.any fun b => decide (b.phase = .ready)

/-- The words an MMA copies from a tile (R166). -/
def Tile.allWords (x : Tile) : List Nat :=
  (List.range (8 * x.rows)) ++ (if x.fmt = 10 then (List.range 8).map (128 + ·) else [])

/-- The oldest accepted MMA copies its operands and starts (R158, R159, R161, R166, R182): with Z = 1 the accumulators start from
zero with ACC_OVF and POISON clear. The manual does not say when in its life an MMA sets IN_USE (R159); the model sets it here, at the
start, and MX_USE does not show it while the MMA waits (DESIGN CHOICE, log 27). -/
def Core.startMma (c : Core) : Core :=
  match c.f.mx.queue with
  | [] => c
  | j :: rest =>
    if j.started || !c.arrayFree || c.checkReady then c
    else
      let ts := [c.tile j.ta.toNat, c.tile j.tb.toNat] ++ if j.sp = 0 then [] else [c.tile j.tm.toNat]
      let ce := (ts.map fun x => x.marked x.allWords 1).foldl (· + ·) 0
      let ue := (ts.map fun x => x.marked x.allWords 2).foldl (· + ·) 0
      let c1 := j.accs.foldl (fun c i =>
        let x := c.acc i
        let y := if j.z then { x with data := 0, ovf := false, poison := false } else x
        c.setAcc i { y with inUse := true, poison := y.poison || !decide (ue = 0) }) (c.countTile ce ue)
      let j' := { j with
        started := true, a := c.tile j.ta.toNat, b := c.tile j.tb.toNat, m := if j.sp = 0 then {} else c.tile j.tm.toNat,
        start0 := (c1.acc j.acc.toNat).data, start1 := if j.sp = 2 then (c1.acc (j.acc.toNat + 1)).data else 0,
        poisoned := !decide (ue = 0) }
      c1.modMx fun x => { x with queue := j' :: rest }

/-- Accumulator elements that hold NaN in the second contents and did not in the first (R41). -/
def newNans (a b : BitVec 2048) : Nat :=
  ((List.range 64).filter fun i => isNan32 (lane 32 b i) && !isNan32 (lane 32 a i)).length

/-- The running MMA finishes (R41, R159, R170): its accumulators written, flip the bits a hardware error changed, first for ACC and
then for ACC + 1. -/
def Core.finishMma (c : Core) (flip : BitVec 4096) : Core :=
  match c.f.mx.queue with
  | [] => c
  | j :: rest =>
    if !j.started then c
    else
      let one := fun (c : Core) (i : Nat) (second : Bool) =>
        let r := mmaResult j second
        let d := r.1 ^^^ lane 2048 flip (b2n second)
        let x := c.acc i
        let c1 := c.setAcc i { x with data := d, ovf := x.ovf || r.2 }
        c1.countFmt (if j.cls = .int then 0 else newNans (if second then j.start1 else j.start0) d) 0
      let c1 := one c j.acc.toNat false
      let c2 := if j.sp = 2 then one c1 (j.acc.toNat + 1) true else c1
      (c2.modMx fun x => { x with queue := rest }).bump (cntPerf 10) j.cycles

end Sys2Proof.Machine
end

