-- ==== Sys2Proof/Machine/Routing.lean ====
section
/-! DEFINITION. VROUTE: selection, token messages, progress and resumption (R188 to R193, R197). -/
namespace Sys2Proof.Machine

/-- The entry of expert e. -/
def Sparsity.entry (sp : Sparsity) (e : Nat) : BitVec 6 := sget 0 sp.expert e
/-- Whether expert e may be selected (Table 08.8). -/
def Sparsity.valid (sp : Sparsity) (e : Nat) : Bool := bitOf (sp.entry e) 5
/-- The endpoint that reaches expert e (Table 08.8). -/
def Sparsity.chanOf (sp : Sparsity) (e : Nat) : Nat := fldN (sp.entry e) 0 5
/-- The valid experts below EXPERTS, rising. -/
def Sparsity.targets (sp : Sparsity) : List Nat := (List.range sp.experts.toNat).filter sp.valid

/-- Whether expert e with score s is a candidate (R188). -/
def Sparsity.cand (sp : Sparsity) (e : Nat) (s : Word) : Bool :=
  sp.valid e && !isNan32 s && (!sp.minEn || (!isNan32 sp.thresh && !(f32 s).lt (f32 sp.thresh)))

/-- An expert put into a ranking: by score descending, then by number ascending (R188); the list holds smaller numbers already. -/
def rankIn (x : Nat × Word) : List (Nat × Word) → List (Nat × Word)
  | [] => [x]
  | y :: ys => if (f32 y.2).lt (f32 x.2) then x :: y :: ys else y :: rankIn x ys

/-- The experts selected for a token with the given scores, in rank order (R188). -/
def Sparsity.select (sp : Sparsity) (scores : List Word) : List (Nat × Word) :=
  let es := (List.range sp.experts.toNat).map fun e => (e, scores.getD e 0)
  ((es.filter fun p => sp.cand p.1 p.2).foldl (fun r p => rankIn p r) []).take sp.topk.toNat

/-- A token header (Table 08.3). -/
def tokenHeader (expert rank kind item token : Nat) (score : Nat) : List Byte :=
  bytesOfNat 8 (expert + 2 ^ 6 * rank + 2 ^ 8 * kind + 2 ^ 10 * item + 2 ^ 16 * (token % 2 ^ 16) + 2 ^ 32 * score)

/-- FP32 words of a byte list. -/
def wordsOfBytes : Nat → List Byte → List Word
  | 0, _ => []
  | n + 1, bs => BitVec.ofNat 32 (natOfBytes (bs.take 4)) :: wordsOfBytes n (bs.drop 4)

/-- What a VROUTE runs with: its thread, instruction and word, its number of tokens, item, first token number, END and P. -/
structure VRoute where
  t : Nat
  op : Op
  word : Word
  n : Nat
  item : Nat
  base : Nat
  fin : Bool
  p : Bool

/-- f applied n times. -/
def iter (f : α → α) : Nat → α → α
  | 0, x => x
  | n + 1, x => iter f n (f x)

/-- The read of one token through AG0, or through AG1 for its payload: illegal generator, R67's checks, then the load (R190). -/
def Core.tokenRead (c : Core) (v : VRoute) (a : AGen) (size align : Nat) : Got :=
  let th := c.th v.t
  if size = 0 then .got [] c
  else if a.illegal v.p then .stop (.fault c (illegalAt th.pc v.word))
  else match th.agCheck a permRD size align with
    | some f => .stop (.fault c f)
    | none => c.loadGot v.t a.address.toNat size

/-- The messages of token i, from its scores and payload: endpoint and bytes (R188, R189). -/
def tokenMsgs (sp : Sparsity) (v : VRoute) (i : Nat) (sel : List (Nat × Word)) (payload : List Byte) : List (Nat × List Byte) :=
  sel.zipIdx.map fun (x, rank) =>
    (sp.chanOf x.1, tokenHeader x.1 rank 0 v.item (v.base + i) x.2.toNat ++ payload)

/-- The END messages (R191). -/
def endMsgs (sp : Sparsity) (v : VRoute) (sent : Sparse Nat) : List (Nat × List Byte) :=
  sp.targets.map fun e => (sp.chanOf e, tokenHeader e 0 1 v.item v.base (sget 0 sent e))

/-- Whether item v.item is live (R197). -/
def Core.itemLive (c : Core) (v : VRoute) : Bool := c.f.sp.live.getLsbD v.item

/-- Address generator k at the access of token i: post-modified once per token with P = 1 (R190). -/
def Core.tokenAg (c : Core) (v : VRoute) (k : BitVec 2) (i : Nat) : AGen :=
  if v.p then iter AGen.step1 i ((c.th v.t).rag k) else (c.th v.t).rag k

/-- The bytes of a token's scores (R190). -/
def Core.scoreBytes (c : Core) : Nat := 4 * c.f.sp.experts.toNat
/-- The bytes of a token's payload (R189). -/
def Core.payloadBytes (c : Core) : Nat := 8 * c.f.sp.payload.toNat
/-- The score cycles of a token (R192). -/
def Core.scoreCycles (c : Core) : Nat := (c.f.sp.experts.toNat + 15) / 16

/-- The VROUTE completes: AG0 and AG1 post-modified N times with P = 1; not in progress any more (R190). -/
def Core.vrDone (c : Core) (v : VRoute) : Res Core :=
  let c1 := c.modTh v.t fun th => if v.p then (th.wag 0 (c.tokenAg v 0 v.n)).wag 1 (c.tokenAg v 1 v.n) else th
  .ok { c1 with f := { c1.f with run := none } }

/-- The VROUTE in progress, running or stopped, with m messages committed (R193, R214). -/
def Core.vrKeep (c : Core) (v : VRoute) (m : Nat) (r : Running) : Core :=
  ({ c with f := { c.f with run := some r } } : Core).atPoint v.t 3 m

/-- A token's read that stopped: the VROUTE stays in progress, stopped, with the messages of earlier tokens committed (R193). -/
def vrStop (v : VRoute) (m : Nat) (r : Running) : Res Core → Res Core
  | .fault c f => .fault (c.vrKeep v m { r with stopped := true }) (f.at 3 m)
  | .watch c j a => .watch (c.vrKeep v m { r with stopped := true }) j a
  | x => x

/-- A resumed VROUTE that has no message PROGRESS to go on with: an illegal instruction (R115). -/
def Core.vrBeyond (c : Core) (v : VRoute) : Res Core :=
  .fault { c with f := { c.f with run := none } } (illegalAt (c.th v.t).pc v.word)

/-- The end of a die cycle of a VROUTE with m messages committed (R192, R197): it goes on, begins its END messages, or completes; a dead
item completes it, the tokens neither routed before nor now added to EX_SKIP. -/
def Core.vrNext (c : Core) (v : VRoute) (m : Nat) (r : Running) : Res Core :=
  if r.wait ≠ 0 ∨ r.pend ≠ [] then .going (c.vrKeep v m r)
  else if v.n < r.tok then c.vrDone v
  else if !c.itemLive v then (c.bump (cntSp 16) (v.n - max r.tok r.seen)).vrDone v
  else if r.tok < v.n then .going (c.vrKeep v m r)
  else
    match (if v.fin then endMsgs c.f.sp v r.sent else []).drop r.skip with
    | [] => if r.scan then c.vrBeyond v else c.vrDone v
    | ms => .going (c.vrKeep v m { r with pend := ms, tok := v.n + 1, skip := 0, scan := false })

/-- A message cycle (R192): the message commits, or the channel does not accept it and the cycle is repeated (R262). -/
def Core.vrSend (c : Core) (v : VRoute) (m : Nat) (r : Running) (ep : Nat) (bs : List Byte) (rest : List (Nat × List Byte)) : Res Core :=
  if (c.chOut ep).refusal.isSome || !c.accepts ep then (c.bump (cntSp 11) 1).vrNext v m r
  else ((c.enpool ep { data := bs, thread := BitVec.ofNat 2 v.t }).bump (cntSp 9) 1).vrNext v (m + 1) { r with pend := rest }

/-- A token examined in its first score cycle (R188 to R190, R192). A rescan (R193) passes over the messages already committed: it
neither counts the token nor takes a selection cycle, and it reads the payload only where a message is left. -/
def Core.vrToken (c : Core) (v : VRoute) (m : Nat) (r : Running) : Res Core :=
  match c.tokenRead v (c.tokenAg v 0 r.tok) c.scoreBytes 16 with
  | .stop x => vrStop v m r x
  | .got bs c1 =>
    let sel := c1.f.sp.select (wordsOfBytes c1.f.sp.experts.toNat bs)
    let old := decide (r.tok < r.seen) || !decide (r.skip = 0)
    let left := decide (r.skip < sel.length)
    match c1.tokenRead v (c1.tokenAg v 1 r.tok) (if old && !left then 0 else c1.payloadBytes) 8 with
    | .stop x => vrStop v m r x
    | .got pl c2 =>
      let new := !decide (r.tok < r.seen) && (left || decide (r.skip = 0))
      let c3 := (c2.bump (cntSp 8) (b2n new)).bump (cntSp 10) (b2n (!old && sel.isEmpty))
      c3.vrNext v m { r with
        tok := r.tok + 1
        seen := if new then r.tok + 1 else r.seen
        sent := sel.foldl (fun s x => smod 0 s x.1 (· + 1)) r.sent
        pend := (tokenMsgs c3.f.sp v r.tok sel pl).drop r.skip
        skip := r.skip - sel.length
        scan := r.scan && old && !left
        wait := c3.scoreCycles - 1 + b2n (!old && sel.isEmpty) }

/-- One die cycle of a VROUTE in progress with m messages committed (R192): a start-up or further score cycle, a message cycle, or the
first score cycle of a token. -/
def Core.vrCycle (c : Core) (v : VRoute) (m : Nat) (r : Running) : Res Core :=
  if r.wait ≠ 0 then c.vrNext v m { r with wait := r.wait - 1 }
  else match r.pend with
    | (ep, bs) :: rest => c.vrSend v m r ep bs rest
    | [] => c.vrToken v m r

/-- A VROUTE run in one step until it completes or stops, or until the channel does not accept a message; fuel bounds its tokens and
messages. -/
def vrAll (v : VRoute) : Nat → Nat → Running → Core → Res Core
  | 0, m, r, c => .going (c.vrKeep v m r)
  | fuel + 1, m, r, c =>
    match c.vrCycle v m { r with wait := if r.pend = [] then min r.wait 1 else 0 } with
    | .going c' =>
      match c'.f.run with
      | some r' =>
        let m' := (c'.th v.t).prog.progress.toNat
        if r.pend ≠ [] ∧ m' = m then .going c' else vrAll v fuel m' r' c'
      | none => .going c'
    | x => x

/-- Enough fuel for the tokens and messages of a VROUTE. -/
def VRoute.fuel (v : VRoute) : Nat := 9 * v.n + 70

/-- The first failing capability check of a VROUTE: CHAN with SEND over the endpoint of every valid entry (R190). -/
def Core.vrouteCap (c : Core) (x : Cap) : Option (CapReason × Word) :=
  match capUse x 3 permSEND with
  | some r => some (r, 0)
  | none =>
    match c.f.sp.targets.find? fun e =>
        let ep := c.f.sp.chanOf e
        decide (ep < x.ubase ∨ x.ubase + x.len ≤ ep) with
    | some e => some (.bounds, BitVec.ofNat 32 (c.f.sp.chanOf e) - BitVec.ofNat 32 x.ubase)
    | none => none

/-- Whether a VDELTA or VROUTE other than this one of thread t is in progress, stopped ones counted (R214). -/
def Core.otherRun (c : Core) (t unit : Nat) : Bool :=
  match c.f.run with
  | some r => !decide (r.thread.toNat = t ∧ r.unit.toNat = unit ∧ r.level = c.levelOf t)
  | none => false

/-- What a VROUTE of thread t runs with. -/
def Core.vroute (c : Core) (t : Nat) (word : Word) (gn gb : BitVec 5) (cc : BitVec 4) (fin p : Bool) : VRoute :=
  let th := c.th t
  { t := t, op := .vroute gn gb cc fin p, word := word, n := (th.rg gn).toNat, item := fldN (th.rg gb) 16 6
    base := fldN (th.rg gb) 0 16, fin := fin, p := p }

/-- A VROUTE issued, fresh or resumed after m messages (R192, R193): all of it, or the first of its four start-up cycles. -/
def Core.vrIssue (c : Core) (e : Env) (v : VRoute) (m : Nat) (resumed : Bool) : Res Core :=
  let r : Running :=
    { unit := 3, thread := BitVec.ofNat 2 v.t, stopped := false, level := c.levelOf v.t, op := v.op, word := v.word
      wait := 4, seen := if resumed then c.tokensSeen else 0, skip := m, scan := resumed }
  let c0 : Core := { c with f := { c.f with run := none } }
  if e.whole then
    match c0.vrNext v m { r with wait := 0 } with
    | .going c1 => vrAll v v.fuel m { r with wait := 0 } c1
    | x => x
  else c0.vrCycle v m r

/-- VROUTE (R188 to R193, R197, R214). A resumed one that fails its capability check stays stopped at its point. -/
def opVroute (e : Env) (t : Nat) (gn gb : BitVec 5) (cc : BitVec 4) (fin p : Bool) (c : Core) : Res Core :=
  let th := c.th t
  let v := c.vroute t e.word gn gb cc fin p
  let m := if th.prog.valid then th.prog.progress.toNat else 0
  if c.otherRun t 3 then .hold 7
  else if v.n = 0 ∨ 8192 < v.n then c.illegal e t
  else match c.vrouteCap (th.rc cc) with
    | some (r, a) =>
      let f := capFault th.pc r cc (th.rc cc) a
      .fault c (if th.prog.valid then f.at 3 m else f)
    | none => c.vrIssue e v m th.prog.valid

end Sys2Proof.Machine
end

