-- ==== Sys2Proof/Machine/DeltaOps.lean ====
section
/-! DEFINITION. VDELTA and DLFRAME (R205 to R217, R224). -/
namespace Sys2Proof.Machine

/-- Delta entry l. -/
def Core.dl (c : Core) (l : Nat) : DlEntry := sget {} c.f.dl.layers l
/-- The core with delta entry l replaced. -/
def Core.setDl (c : Core) (l : Nat) (x : DlEntry) : Core :=
  { c with f := { c.f with dl := { c.f.dl with layers := sset {} c.f.dl.layers l x } } }

/-- A new frame on an entry (R207, steps 1 to 3). -/
def DlEntry.frame (x : DlEntry) (force : Bool) : DlEntry :=
  let pos := if force ∨ x.pos + 1 = x.keyInt then 0 else x.pos + 1
  { x with snap := x.run, lastKey := x.keyNow, run := [], pos := pos, keyNow := decide (pos = 0) }

/-- Whether a VDELTA on entry l is in progress, stopped ones counted (R207, R226). -/
def Core.deltaBusy (c : Core) (l : Nat) : Bool :=
  match c.f.run with
  | some r => match r.op with
    | .vdelta layer _ => decide (layer.toNat = l)
    | _ => false
  | none => false

/-- DLFRAME (R207). -/
def opDlframe (e : Env) (t : Nat) (layer : BitVec 4) (gd ga : BitVec 5) (c : Core) : Res Core :=
  let l := layer.toNat
  if !(c.dl l).en then c.illegal e t
  else if c.deltaBusy l then .hold 7
  else
    let x := (c.dl l).frame (bitOf ((c.th t).rg ga) 0)
    (c.setDl l x).thOp t fun th => th.wg gd (BitVec.ofNat 32 (b2n x.keyNow))

/-! ## The gate -/

/-- Lane width of a TYPE (Table 09.2). -/
def dlWidth (ty : Nat) : Nat := match ty with | 0 => 8 | 1 => 8 | 2 => 16 | _ => 32

/-- One lane: new reference, delta, passed, clamped (R210). -/
def dlLane (ty : Nat) (thr : Word) (x r : Nat) : Nat × Nat × Bool × Bool :=
  let w := dlWidth ty
  if ty = 4 then
    let xw : Word := BitVec.ofNat 32 x
    let rw : Word := BitVec.ofNat 32 r
    let nan := isNan32 xw || isNan32 rw
    let d := fsub xw rw
    let pass := nan || (!isNan32 d && (f32 thr).lt (f32 (fabs d)))
    let e := if nan then toF32 .nan else d
    (if pass then x else r, if pass then e.toNat else 0, pass, false)
  else
    let val := fun (b : Nat) => if ty = 1 then (b : Int) else (BitVec.ofNat w b).toInt
    let d := val x - val r
    let pass := decide (thr.toNat % 2 ^ 16 < d.natAbs)
    let top : Int := 2 ^ (w - 1)
    let e := max (-top) (min (top - 1) d)
    (if pass then patOf w (val r + e) else r, if pass then patOf w e else 0, pass, pass && !decide (d = e))

/-- A block's lanes gated: new reference bytes, delta bytes, lanes passed, lanes clamped (R210). -/
def dlBlock (ty : Nat) (thr : Word) (x r : List Byte) : List Byte × List Byte × Nat × Nat :=
  let w := dlWidth ty / 8
  let ls := (List.range (64 / w)).map fun i =>
    dlLane ty thr (natOfBytes ((x.drop (i * w)).take w)) (natOfBytes ((r.drop (i * w)).take w))
  (ls.flatMap fun l => bytesOfNat w l.1, ls.flatMap fun l => bytesOfNat w l.2.1,
   (ls.filter fun l => l.2.2.1).length, (ls.filter fun l => l.2.2.2).length)

/-! ## The run -/

/-- What a VDELTA runs with: its thread, instruction and word, its entry, whether the frame is a key frame, and its blocks. -/
structure VDelta where
  t : Nat
  op : Op
  word : Word
  layer : Nat
  key : Bool
  n : Nat

/-- The first failing check of an access through AGk: illegal generator, then R67 (R209, R216). -/
def Core.dlCheck (c : Core) (v : VDelta) (k : BitVec 2) (need : BitVec 12) (size align : Nat) : Option FaultRec :=
  let th := c.th v.t
  let a := th.rag k
  if a.illegal true then some (illegalAt th.pc v.word) else th.agCheck a need size align

/-- The byte address of AGk's access. -/
def Core.dlAddr (c : Core) (v : VDelta) (k : BitVec 2) : Nat := ((c.th v.t).rag k).address.toNat

/-- Counts added to an entry's running counts (R224). -/
def DlEntry.add (x : DlEntry) (i n : Nat) : DlEntry := if n = 0 then x else { x with run := smod 0 x.run i (satAdd · n) }

/-- A completed block counted: block, map bit, lanes passed and clamped (Table 09.3). -/
def Core.dlCount (c : Core) (v : VDelta) (nz pass clamp : Nat) : Core :=
  c.setDl v.layer (((((c.dl v.layer).add 0 1).add 1 nz).add 2 pass).add 3 clamp)

/-- Die cycles added to DL_RESUME_CYC (R215). -/
def Core.dlResumed (c : Core) (n : Nat) : Core :=
  { c with f := { c.f with dl := { c.f.dl with resumeCyc := satAdd c.f.dl.resumeCyc n } } }

/-- AGk post-modified (R209). -/
def Core.dlPost (c : Core) (v : VDelta) (k : BitVec 2) : Core := c.modTh v.t fun th => th.postIf k true

/-- The tracked ranges of a VDELTA before block b (R217). -/
def Core.dlLines (c : Core) (v : VDelta) (b : Nat) : List (Nat × Nat × Bool) :=
  let th := c.th v.t
  let m := v.n - b
  ((agAddrs true m (th.rag 0)).map fun a => (a, 64, false)) ++ ((agAddrs true m (th.rag 1)).map fun a => (a, 64, true))
  ++ (if v.key then [] else ((agAddrs true m (th.rag 2)).map fun a => (a, 64, true))
      ++ ((agAddrs true ((v.n + 7) / 8 - b / 8) (th.rag 3)).map fun a => (a, 1, true)))

/-- A VDELTA in progress, nothing of it held yet. -/
def Core.dlStart (c : Core) (v : VDelta) : Running :=
  { unit := 4, thread := BitVec.ofNat 2 v.t, stopped := false, level := c.levelOf v.t, op := v.op, word := v.word }

/-- The VDELTA kept in progress, running or stopped, before block b with its ranges (R214, R215, R217). -/
def Core.dlKeep (c : Core) (v : VDelta) (b : Nat) (r : Running) : Core :=
  ({ c with f := { c.f with run := some { r with lines := c.dlLines v b } } } : Core).atPoint v.t 4 b

/-- The map byte of an unfinished group written at a stop (R215): not when its word is uncorrectable. -/
def Core.dlStopMap (c : Core) (v : VDelta) (b : Nat) (map : Option Nat) : Core :=
  match map with
  | some m => if b % 8 = 0 then c else (c.writeSpad (c.dlAddr v 3) [BitVec.ofNat 8 (m % 2 ^ (b % 8))]).2
  | none => c

/-- The VDELTA stopped before block b, with the map bits to write if any (R215, R216). -/
def Core.dlHalt (c : Core) (v : VDelta) (b : Nat) (map : Option Nat) : Core :=
  let c1 := c.dlStopMap v b map
  c1.dlKeep v b { c1.dlStart v with stopped := true }

/-- A stop at block b (R215, R216). -/
def dlStop (v : VDelta) (b : Nat) (map : Option Nat) : Res Core → Res Core
  | .fault c' f => .fault (c'.dlHalt v b map) (f.at 4 b)
  | .watch c' j a => .watch (c'.dlHalt v b map) j a
  | r => r

/-- The first watchpoint among some accesses: address, bytes, write. -/
def Core.watchAny (c : Core) (t : Nat) : List (Nat × Nat × Bool) → Option (Nat × Nat)
  | [] => none
  | (a, n, w) :: rest =>
    match c.watchpoint t a n w with
    | some j => some (j, a)
    | none => c.watchAny t rest

/-- The accesses of a block: held by a tracked range, stopped by a watchpoint, or k. -/
def Core.dlAccess (c : Core) (v : VDelta) (acc : List (Nat × Nat × Bool)) (k : Res Core) : Res Core :=
  if acc.any fun (a, n, w) => c.rangeHeld a n w then .hold unitRange
  else match c.watchAny v.t acc with
    | some (j, a) => .watch c j (BitVec.ofNat 32 a)
    | none => k

/-- What a block of a VDELTA gave: the core past it, the map bits of the group that goes on, and the die cycles that it takes beyond
one (R213); or its stop. -/
inductive DlGot where
  | past (c : Core) (map : Option Nat) (extra : Nat)
  | stop (r : Res Core)

/-- One block of a key frame (R211). -/
def Core.dlKeyBlock (c : Core) (v : VDelta) : DlGot :=
  let pc := (c.th v.t).pc
  match (c.dlCheck v 0 permRD 64 64).or (c.dlCheck v 1 (permRD ||| permWR) 64 64) with
  | some f => .stop (.fault c f)
  | none =>
    let a0 := c.dlAddr v 0
    let a1 := c.dlAddr v 1
    let r := c.dlAccess v [(a0, 64, false), (a1, 64, true)] <|
      match c.readSpad a0 64 with
      | (some w, _, c1) => .fault c1 (ueFault pc w)
      | (none, x, c1) => .ok ((((c1.writeSpad a1 x).2.dlCount v 0 0 0).dlPost v 0).dlPost v 1)
    match r with
    | .ok c' => .past c' none 0
    | r => .stop r

/-- One block of a delta frame: block b, the group's map bits so far (R210, R212, R213, R216). The delta and the reference are written
before the map byte, which is written when the block completes. -/
def Core.dlDeltaBlock (c : Core) (v : VDelta) (b map : Nat) : DlGot :=
  let pc := (c.th v.t).pc
  let en := c.dl v.layer
  let chk3 := if b % 8 = 0 then c.dlCheck v 3 (permRD ||| permWR) 1 1 else none
  match (((c.dlCheck v 0 permRD 64 64).or (c.dlCheck v 1 (permRD ||| permWR) 64 64)).or (c.dlCheck v 2 permWR 64 64)).or chk3 with
  | some f => .stop (.fault c f)
  | none =>
    let a0 := c.dlAddr v 0
    let a1 := c.dlAddr v 1
    let a2 := c.dlAddr v 2
    let a3 := c.dlAddr v 3
    match c.readSpad a0 64 with
    | (some w, _, c1) => .stop (.fault c1 (ueFault pc w))
    | (none, x, c1) =>
      match c1.readSpad a1 64 with
      | (some w, _, c2) => .stop (.fault c2 (ueFault pc w))
      | (none, r, c2) =>
        let (r', d, pass, clamp) := dlBlock en.type.toNat en.thr x r
        let any := !decide (pass = 0)
        let map' := map + if any then 2 ^ (b % 8) else 0
        let last := decide (b % 8 = 7) || decide (b + 1 = v.n)
        let acc := [(a0, 64, false), (a1, 64, any), (a2, 64, true)] ++ if last then [(a3, 1, true)] else []
        let c3 := (c2.writeSpad a2 d).2
        let c4 := if any then (c3.writeSpad a1 r').2 else c3
        let done := c.dlAccess v acc <|
          match (if last then c4.writeSpad a3 [BitVec.ofNat 8 map'] else (none, c4)) with
          | (some w, _) => .fault (c2.noteWords [w]) (ueFault pc w)
          | (none, c5) =>
            let c6 := (((c5.dlCount v (b2n any) pass clamp).dlPost v 0).dlPost v 1).dlPost v 2
            .ok (if last then c6.dlPost v 3 else c6)
        match done with
        | .ok c' => .past c' (some (if last then 0 else map')) (b2n any + b2n last)
        | r => .stop r

/-- Block b of a VDELTA. -/
def Core.dlNextBlock (c : Core) (v : VDelta) (b : Nat) (map : Option Nat) : DlGot :=
  if v.key then c.dlKeyBlock v else c.dlDeltaBlock v b (map.getD 0)

/-- Blocks b onward, m of them, in one step (R210 to R212). -/
def dlRun (v : VDelta) : Nat → Nat → Option Nat → Core → Res Core
  | 0, _, _, c => .ok c
  | m + 1, b, map, c =>
    match c.dlNextBlock v b map with
    | .past c' map' _ => dlRun v m (b + 1) map' c'
    | .stop r => dlStop v b map r

/-- The map byte of an unfinished group read at a resumption within it (R215). -/
def Core.dlResumeMap (c : Core) (v : VDelta) : Got :=
  match c.dlCheck v 3 (permRD ||| permWR) 1 1 with
  | some f => .stop (.fault c f)
  | none => c.loadGot v.t (c.dlAddr v 3) 1

/-- The bits of a map byte read that belong to the blocks before b. -/
def dlMapOf (b : Nat) (bs : List Byte) : Option Nat := some (natOfBytes bs % 2 ^ (b % 8))

/-- Blocks b to N − 1 in one step, after the map byte where it is still to be read (R215). -/
def dlFrom (v : VDelta) (b : Nat) (due : Bool) (map : Option Nat) (c : Core) : Res Core :=
  if due then
    match c.dlResumeMap v with
    | .stop x => dlStop v b none x
    | .got bs c1 => dlRun v (v.n - b) b (dlMapOf b bs) c1
  else dlRun v (v.n - b) b map c

/-- The end of a die cycle of a VDELTA with b blocks done: complete after the last block's cycles (R213). -/
def Core.dlNext (c : Core) (v : VDelta) (b : Nat) (r : Running) : Res Core :=
  if r.wait = 0 ∧ v.n ≤ b then .ok c else .going (c.dlKeep v b r)

/-- One die cycle of a VDELTA in progress with b blocks done (R213, R215): a start-up cycle, the read of an unfinished map byte, a block,
or a further cycle of one. -/
def Core.dlCycle (c : Core) (v : VDelta) (b : Nat) (r : Running) : Res Core :=
  let c0 : Core := { c with f := { c.f with run := none } }
  let c1 := if r.resumed then c0.dlResumed 1 else c0
  if r.wait ≠ 0 then c1.dlNext v b { r with wait := r.wait - 1 }
  else if r.due then
    match c1.dlResumeMap v with
    | .stop x => dlStop v b none x
    | .got bs c2 => c2.dlNext v b { r with due := false, map := dlMapOf b bs }
  else
    match c0.dlNextBlock v b r.map with
    | .past c2 map extra => c2.dlNext v (b + 1) { r with wait := extra, map := map, resumed := false }
    | .stop x => dlStop v b r.map x

/-- What a VDELTA of thread t runs with. -/
def Core.vdelta (c : Core) (t : Nat) (word : Word) (layer : BitVec 4) (gn : BitVec 5) : VDelta :=
  { t := t, op := .vdelta layer gn, word := word, layer := layer.toNat, key := (c.dl layer.toNat).keyNow
    n := ((c.th t).rg gn).toNat }

/-- VDELTA issued with b blocks done (R213, R215): every block, or the first of its four start-up cycles. -/
def Core.dlIssue (c : Core) (e : Env) (v : VDelta) (b : Nat) (resumed : Bool) : Res Core :=
  let c0 : Core := { c with f := { c.f with run := none } }
  let due := !v.key && !decide (b % 8 = 0)
  if e.whole then
    dlFrom v b due none (if resumed then c0.dlResumed (4 + b2n due) else c0)
  else c.dlCycle v b { c.dlStart v with wait := 4, due := due, resumed := resumed }

/-- VDELTA (R209 to R217). -/
def opVdelta (e : Env) (t : Nat) (layer : BitVec 4) (gn : BitVec 5) (c : Core) : Res Core :=
  let th := c.th t
  let v := c.vdelta t e.word layer gn
  let b := if th.prog.valid then th.prog.progress.toNat else 0
  if c.otherRun t 4 then .hold 7
  else if v.n = 0 ∨ 2048 < v.n ∨ !(c.dl v.layer).en ∨ v.n ≤ b then c.illegal e t
  else c.dlIssue e v b th.prog.valid

end Sys2Proof.Machine
end

