-- ==== Sys2Proof/Machine/ChanLand.lean ====
section
/-! DEFINITION. What a core does with landing messages, signals and channel responses, and what leaves its send pool (R195,
R196, R262, R263, R267 to R270). -/
namespace Sys2Proof.Machine

/-! ## Landing of a message or signal -/

/-- A response to the source of a message: to a core over the mesh, to an Ethernet port likewise (R267, R259). -/
def Core.respond (c : Core) (w : Nat) (src : Node) (body : Body) : Core :=
  match src with
  | .core b => c.sendTo w b true 1 body
  | n =>
    let vert := ((attachOf n w).map (·.2)).getD false
    c.sendPkt (mkPacket (.core w) n (orderToPort vert) true 1 body)

/-- How a token message is handled on landing (Table 08.5). -/
inductive TokenFate where
  | queue                 -- queued
  | discard               -- accepted and discarded
  | forward (live : Bool) -- bit set or cleared, forwarded, queued
  deriving DecidableEq, Repr

/-- The handling of a message with the given header under ITEM_LIVE (Tables 08.3, 08.5). -/
def tokenFate (live : BitVec 64) (data : List Byte) : TokenFate :=
  let h := natOfBytes (data.take 8)
  let kind := h / 2 ^ 8 % 4
  let on := live.getLsbD (h / 2 ^ 10 % 64)
  match kind with
  | 2 => if on then .forward false else .discard
  | 3 => if on then .discard else .forward true
  | _ => if on then .queue else .discard

/-- The item number of a token header (Table 08.3). -/
def tokenItem (data : List Byte) : Nat := natOfBytes (data.take 8) / 2 ^ 10 % 64

/-- The inbound half after an accepted message (R267). -/
def ChIn.accepted (h : ChIn) : ChIn := { h with seqExp := h.seqExp + 1, gap := false, resumeSent := false, resumeDue := false }

/-- A message placed in the next free slot (R264). -/
def Core.enqueue (c : Core) (i : Nat) (seq : BitVec 8) (data : List Byte) : Core :=
  let h := c.chIn i
  let c1 := c.routerWrite (h.qbase.toNat * 512 + 64 * h.head.toNat) data
  let h' := h.accepted
  (c1.setIn i { h' with q := h'.q ++ [{ slot := h.head, len := data.length, seq := seq }], head := h.head + 1 }).bump (cntChan 1) 1

/-- A dropped message: NACK, GAP (R267). -/
def Core.dropMsg (c : Core) (w : Nat) (src : Node) (srcEp : BitVec 5) (i : Nat) (seq : BitVec 8) (tag : Nat) : Core :=
  let h := c.chIn i
  let c1 := c.setIn i { h with gap := true, resumeSent := false, gapTag := tag, gapSrc := some src }
  (c1.bump (cntChan 3) 1).respond w src (.nack srcEp seq tag)

/-- A rejected message (R267). -/
def Core.rejectMsg (c : Core) (w : Nat) (src : Node) (srcEp : BitVec 5) (seq : BitVec 8) (tag : Nat) (why : Reject) : Core :=
  (c.bump (cntChan 7) 1).respond w src (.reject srcEp seq tag why)

/-- The endpoints whose EXIT_FWD bit is set, rising (R196). -/
def Core.fwdEps (c : Core) : List Nat := bitsOf 32 c.f.sp.exitFwd.toNat

/-- An accepted message on endpoint i: queued, or handled by KIND where TOKEN_EP is set; dropped when the queue, or the pending
forwards, are full (R194 to R196, R267). -/
def Core.takeMsg (c : Core) (w : Nat) (src : Node) (srcEp : BitVec 5) (i : Nat) (seq : BitVec 8) (tag : Nat)
    (data : List Byte) : Core :=
  let full := decide (8 ≤ (c.chIn i).q.length)
  let fate := if bitOf c.f.sp.tokenEp i then tokenFate c.f.sp.live data else .queue
  let ack := fun (c : Core) => c.respond w src (.ack srcEp seq tag)
  if full then c.dropMsg w src srcEp i seq tag
  else match fate with
  | .discard => ack ((c.setIn i (c.chIn i).accepted).bump (cntSp 13) 1)
  | .queue => ack (c.enqueue i seq data)
  | .forward live =>
    let eps := c.fwdEps
    if (!eps.isEmpty && decide (4 ≤ c.f.sp.fwd.length)) then c.dropMsg w src srcEp i seq tag
    else
      let item := tokenItem data
      let bit : BitVec 64 := BitVec.ofNat 64 (2 ^ item)
      let sp' := { c.f.sp with
        live := if live then c.f.sp.live ||| bit else c.f.sp.live &&& ~~~bit,
        fwd := if eps.isEmpty then c.f.sp.fwd else c.f.sp.fwd ++ [(data, eps)] }
      let c1 : Core := { c with f := { c.f with sp := sp' } }
      ack ((if live then c1 else c1.bump (cntSp 12) 1).enqueue i seq data)

/-- Whether endpoint i accepts traffic from a source core and endpoint (R257, R267). -/
def Core.fromSource (c : Core) (i : Nat) (srcWord : Nat) (srcEp : BitVec 5) : Bool :=
  (c.chIn i).en && decide ((c.chIn i).src.toNat = srcWord) && decide ((c.chIn i).srcEp = srcEp)

/-- A message landing on endpoint i (R267). -/
def Core.landMsg (c : Core) (w : Nat) (src : Node) (srcWord : Nat) (srcEp : BitVec 5) (i : Nat) (seq : BitVec 8) (tag : Nat)
    (data : List Byte) : Core :=
  if !c.fromSource i srcWord srcEp then c.rejectMsg w src srcEp seq tag .rejected
  else if seq ≠ (c.chIn i).seqExp then c.bump (cntChan 6) 1
  else c.takeMsg w src srcEp i seq tag data

/-- A counter signal landing on endpoint i (R267, R274). R142 says that a CINC of a window's counter returns credit: the model takes it of a
local CINC, which raises a counter of its own core, and a signal that raises a window's counter returns none (DESIGN CHOICE, log 33). -/
def Core.landSig (c : Core) (w : Nat) (src : Node) (srcWord : Nat) (srcEp : BitVec 5) (i : Nat) (seq : BitVec 8) (tag : Nat)
    (amount : Word) (thread : BitVec 2) : Core :=
  let h := c.chIn i
  if !c.fromSource i srcWord srcEp then c.rejectMsg w src srcEp seq tag .rejected
  else if seq ≠ h.seqExp then c.bump (cntChan 6) 1
  else if !h.sigEn then c.rejectMsg w src srcEp seq tag .rejected
  else
    let c1 := (c.setIn i h.accepted).raiseK h.sigCntr.toNat amount.toNat 2 thread srcEp srcWord
    (c1.bump (cntChan 2) 1).respond w src (.ack srcEp seq tag)

/-- A due RESUME leaves (R268): the lowest endpoint that owes one. -/
def Core.sendResume (c : Core) (w : Nat) : Core :=
  match (List.range 32).find? fun i => (c.chIn i).resumeDue with
  | none => c
  | some i =>
    let h := c.chIn i
    (c.setIn i { h with resumeDue := false }).respond w (h.gapSrc.getD (.core h.src.toNat)) (.resume h.srcEp h.seqExp h.gapTag)

/-! ## Responses -/

/-- Whether a pool entry is message seq of endpoint ep. -/
def PoolMsg.isMsg (m : PoolMsg) (ep : BitVec 5) (seq : BitVec 8) : Bool :=
  !m.dbg && decide (m.ep = ep) && decide (m.seq = seq)

/-- An acknowledgement frees the pool entry (R261, R262); one of an earlier enable is discarded (R270). -/
def Core.landAck (c : Core) (ep : BitVec 5) (seq : BitVec 8) (tag : Nat) : Core :=
  if (c.chOut ep.toNat).tag ≠ tag then c else c.setPool (c.f.ch.pool.filter fun m => !m.isMsg ep seq)

/-- A NACK sets RECOVERY (R269). -/
def Core.landNack (c : Core) (ep : BitVec 5) (tag : Nat) : Core :=
  let o := c.chOut ep.toNat
  if o.tag ≠ tag then c
  else (c.setOut ep.toNat { o with recovery := true }).bump (cntChan 4) 1

/-- A RESUME marks every unacknowledged message from seq on to be sent again (R269). -/
def Core.landResume (c : Core) (ep : BitVec 5) (seq : BitVec 8) (tag : Nat) : Core :=
  let o := c.chOut ep.toNat
  if o.tag ≠ tag then c
  else
    let back := fun (m : PoolMsg) =>
      !m.dbg && decide (m.ep = ep) && m.sent && decide ((o.seqNext - m.seq).toNat ≤ (o.seqNext - seq).toNat)
    let pool := c.f.ch.pool.map fun m => if back m then { m with resend := true } else m
    let c1 := c.setPool pool
    if c.f.ch.pool.any back then c1 else c1.setOut ep.toNat { o with recovery := false }

/-- A reject or UNREACHABLE return frees the entry and sets its error bit (R270). -/
def Core.landReject (c : Core) (ep : BitVec 5) (seq : BitVec 8) (tag : Nat) (why : Reject) : Core :=
  let o := c.chOut ep.toNat
  if o.tag ≠ tag then c
  else
    let o' := match why with
      | .rejected => { o with errRej := true }
      | .cleared => { o with errClr := true }
      | .unreachable => { o with errUn := true }
    (c.setPool (c.f.ch.pool.filter fun m => !m.isMsg ep seq)).setOut ep.toNat o'

/-! ## The send pool -/

/-- Whether an earlier message of the same half is held by its release (R262, R263). -/
def behindHeld (before : List PoolMsg) (m : PoolMsg) : Bool :=
  before.any fun x => !x.dbg && decide (x.ep = m.ep) && x.held && !x.sent

/-- The new message that leaves next: the first unsent one whose half is not in recovery and that nothing holds. -/
def nextNew (c : Core) : List PoolMsg → List PoolMsg → Option PoolMsg
  | _, [] => none
  | before, m :: ms =>
    if !m.dbg && !m.sent && !m.held && !(c.chOut m.ep.toNat).recovery && !behindHeld before m then some m
    else nextNew c (before ++ [m]) ms

/-- The message that leaves in a cycle: resends first (R262). -/
def Core.nextDepart (c : Core) : Option PoolMsg :=
  match c.f.ch.pool.find? fun m => m.resend with
  | some m => some m
  | none => nextNew c [] c.f.ch.pool

/-- The pending forwards offered to the send pool, in order, while messages are accepted (R196). -/
def pumpForwards (c : Core) : Nat → Core
  | 0 => c
  | n + 1 =>
    match c.f.sp.fwd with
    | [] => c
    | (_, []) :: rest => pumpForwards { c with f := { c.f with sp := { c.f.sp with fwd := rest } } } n
    | (data, i :: is) :: rest =>
      if (c.chOut i).refusal.isSome || !c.accepts i then c
      else
        let c1 := c.enpool i { data := data }
        pumpForwards { c1 with f := { c1.f with sp := { c1.f.sp with fwd := (data, is) :: rest } } } n

/-- A pool message marked as sent, with its counts; the last resend of a half ends its recovery (R269, Table 11.3). -/
def Core.markSent (c : Core) (m : PoolMsg) : Core :=
  let pool := c.f.ch.pool.map fun x => if x.id = m.id then { x with sent := true, resend := false } else x
  let c1 := (c.setPool pool).bump (cntChan (if m.resend then 5 else 0)) 1
  if m.resend && !pool.any (fun x => x.resend && decide (x.ep = m.ep)) then
    c1.setOut m.ep.toNat { c1.chOut m.ep.toNat with recovery := false }
  else c1

/-- The body a pool message travels as. -/
def Core.bodyOf (c : Core) (m : PoolMsg) : Body :=
  let o := c.chOut m.ep.toNat
  match m.sig with
  | some n => .sig m.ep o.tgtEp m.seq o.tag n m.thread
  | none => .msg m.ep o.tgtEp m.seq o.tag m.data

/-- The bytes a pool message moves. -/
def PoolMsg.bytes (m : PoolMsg) : Nat := if m.sig.isSome then 8 else m.data.length

end Sys2Proof.Machine
end

