-- ==== Sys2Proof/Machine/StandOps.lean ====
section
/-! DEFINITION. Stands on a core: tokens, firings, context switches and the stand instructions (chapter 10). -/
namespace Sys2Proof.Machine

/-! ## Registers -/

/-- Token queue q. -/
def Core.tq (c : Core) (q : Nat) : TQueue := sget {} c.f.st.tq q
/-- The core with token queue q replaced. -/
def Core.setTq (c : Core) (q : Nat) (x : TQueue) : Core :=
  { c with f := { c.f with st := { c.f.st with tq := sset {} c.f.st.tq q x } } }
/-- Token port p. -/
def Core.tport (c : Core) (p : Nat) : TPort := sget {} c.f.st.tport p
/-- The core with token port p replaced. -/
def Core.setTport (c : Core) (p : Nat) (x : TPort) : Core :=
  { c with f := { c.f with st := { c.f.st with tport := sset {} c.f.st.tport p x } } }
/-- The core with f applied to its stand state. -/
def Core.modSt (c : Core) (f : Stand → Stand) : Core := { c with f := { c.f with st := f c.f.st } }
/-- STALL_CNT back to 0 (R246). -/
def Core.clearStall (c : Core) : Core := { c with t := { c.t with stallCnt := 0 } }

/-- STAND_CTL (Table 10.7). -/
def Stand.ctl (s : Stand) : Word :=
  BitVec.ofNat 32 (s.id.toNat + 2 ^ 12 * b2n s.mode + 2 ^ 13 * b2n s.run + 2 ^ 14 * s.ctxValid.toNat
    + 2 ^ 18 * s.curCtx.toNat + 2 ^ 20 * b2n s.swPend + 2 ^ 21 * s.swCtx.toNat + 2 ^ 23 * s.swDisp.toNat
    + 2 ^ 25 * b2n s.stalled)

/-- Tokens a queue holds (TOTAL). -/
def TQueue.total (q : TQueue) : Nat := q.toks.length + q.ext.length
/-- Capacity of a queue (R241). -/
def TQueue.cap (q : TQueue) : Nat := 16 + 16 * q.extUnits.toNat
/-- TQ_OCC (Table 10.7). -/
def TQueue.occ (q : TQueue) : Word := BitVec.ofNat 32 (q.total + 2 ^ 10 * q.toks.length + 2 ^ 16 * q.hwm.toNat)
/-- Tokens of a context that a queue holds. -/
def TQueue.ctxOcc (q : TQueue) (k : Nat) : Nat :=
  (q.toks.filter fun x => decide (x.ctx.toNat = k)).length + (q.ext.filter fun x => decide (x.ctx.toNat = k)).length
/-- The queue's HWM raised to its TOTAL (R251). -/
def TQueue.mark (q : TQueue) : TQueue := if q.hwm.toNat < q.total then { q with hwm := BitVec.ofNat 10 q.total } else q
/-- Whether bit k of CTX_VALID is set. -/
def Stand.valid (s : Stand) (k : Nat) : Bool := s.ctxValid.getLsbD k

/-! ## Tokens -/

/-- One unit of credit returned to a source port (R240). -/
def Core.tokenCredit (c : Core) (w src : Nat) (port : BitVec 3) : Core := c.sendTo w src true 1 (.tcredit port 1 false)

/-- The first byte address of extension slot j of a queue (R241). -/
def TQueue.slotAddr (q : TQueue) (j : Nat) : Nat := q.extBase.toNat * 1024 + 64 * j

/-- A credit message at the port that sent the token (R240, R242). -/
def Core.landTokenCredit (c : Core) (port : BitVec 3) (n : Nat) (cleared : Bool) : Core :=
  let p := c.tport port.toNat
  if !p.en then c
  else
    let nb := p.bal.toNat + n
    let past := decide (p.limit.toNat < nb)
    let c1 := c.setTport port.toNat
      { p with bal := if past then p.limit else BitVec.ofNat 10 nb, credOvf := p.credOvf || past,
               errCleared := p.errCleared || cleared }
    let c2 := c1.clearStall
    if cleared then c2.raiseAsync 9 (BitVec.ofNat 32 (2 + 16 * port.toNat)) 0 else c2

/-- The tokens of a queue that satisfy p, discarded: counted in counter k and their credit returned (R238, R244). -/
def Core.creditAll (c : Core) (w src : Nat) (k : Nat) (ports : List (BitVec 3)) : Core :=
  (ports.foldl (fun c p => c.tokenCredit w src p) c).bump (cntStand k) ports.length

/-- Queue i's EN cleared: every token discarded (R238). -/
def Core.emptyQueue (c : Core) (w i : Nat) : Core :=
  let q := c.tq i
  (c.setTq i { q with toks := [], ext := [], extNext := 0 }).creditAll w q.src.toNat 6
    (q.toks.map (·.port) ++ q.ext.map (·.port))

/-- The lowest queue with an extension token that a free on-chip entry waits for (R241). -/
def Core.refillDue (c : Core) : Option Nat := [0, 1, 2, 3].find? fun i => decide ((c.tq i).toks.length < 16 ∧ (c.tq i).ext ≠ [])

/-- The oldest extension token of the lowest queue that has one and a free entry moves on chip, or is discarded when flushed or
uncorrectable (R241, R244, R254). -/
def Core.refill (c : Core) (w : Nat) : Core :=
  match c.refillDue with
  | none => c
  | some i =>
    let q := c.tq i
    match q.ext with
    | [] => c
    | x :: rest =>
      let c1 := c.setTq i { q with ext := rest }
      if x.flush then (c1.bump (cntStand 7) 1).tokenCredit w q.src.toNat x.port
      else match c1.readSpad (q.slotAddr x.slot) x.len with
        | (some _, _, c2) =>
          ((c2.bump (cntStand 6) 1).tokenCredit w q.src.toNat x.port).raiseAsync 9 (BitVec.ofNat 32 (3 + 16 * i)) 0
        | (none, bs, c2) =>
          c2.setTq i { q with ext := rest, toks := q.toks ++ [{ ctx := x.ctx, port := x.port, data := bs }] }

/-- The refills that go before a landing that spills, each in a die cycle that the landing waits (R241). -/
def Core.refillFirst (w : Nat) : Nat → Core → Core
  | 0, c => c
  | n + 1, c => if c.refillDue.isSome then Core.refillFirst w n ((c.refill w).bump (cntPerf 7) 1) else c

/-- Whether a token that lands now is written to the queue's extension (R241). -/
def TQueue.spills (q : TQueue) : Bool := decide (16 ≤ q.toks.length ∨ q.ext ≠ [])

/-- A token put into queue i, on chip or in the extension (R241, R251). -/
def Core.putToken (c : Core) (i : Nat) (p : BitVec 3) (ctx : BitVec 2) (data : List Byte) : Core :=
  let q := c.tq i
  if !q.spills then c.setTq i (TQueue.mark { q with toks := q.toks ++ [{ ctx := ctx, port := p, data := data }] })
  else
    let x : ExtTok := { slot := q.extNext, ctx := ctx, port := p, len := data.length }
    ((c.routerWrite (q.slotAddr q.extNext) data).bump (cntStand 5) 1).setTq i
      (TQueue.mark { q with ext := q.ext ++ [x], extNext := (q.extNext + 1) % (16 * q.extUnits.toNat) })

/-- A token landing on queue i from core src, port p (R238, R241): one that spills waits for the refills that are due. -/
def Core.landToken (c : Core) (w src : Nat) (p : BitVec 3) (i : Nat) (ctx : BitVec 2) (data : List Byte) : Core :=
  let q := c.tq i
  if !c.f.st.mode || !q.en || !decide (q.src.toNat = src) || !c.f.st.valid ctx.toNat || decide (q.cap ≤ q.total) then
    (c.bump (cntStand 6) 1).tokenCredit w src p
  else
    let c1 := (c.bump (cntStand 4) 1).bump (cntStand 9) (b2n (dieOf src ≠ dieOf w))
    (if q.spills then c1.refillFirst w 64 else c1).putToken i p ctx data

/-! ## Firings -/

/-- Trigger word i of the current context (R230, R231). -/
def Stand.trigger (s : Stand) (i : Nat) : Word := sget 0 s.store (128 * s.curCtx.toNat + i)

/-- Whether a queue has an on-chip token of context k. -/
def TQueue.has (q : TQueue) (k : BitVec 2) : Bool := q.toks.any fun x => decide (x.ctx = k)

/-- Whether trigger i may fire (R231, R232). -/
def Core.triggerReady (c : Core) (i : Nat) : Bool :=
  let x := c.f.st.trigger i
  bitOf x 4 && !decide (fldN x 0 4 = 0) && decide (8 ≤ fldN x 16 7)
    && (bitsOf 4 (fldN x 0 4)).all fun q => (c.tq q).has c.f.st.curCtx

/-- Whether the stand thread is enabled and waits for a firing (R232, R487). -/
def Core.standWaits (c : Core) : Bool :=
  let th := c.th 1
  c.f.st.mode && c.enabled 1 && th.started && !th.firing && !th.isStopped && !th.faultHeld && th.saveWait.isNone

/-- Whether a pending switch takes place now (R244, R245). -/
def Core.switchReady (c : Core) : Bool :=
  let s := c.f.st
  s.swPend && !(c.th 1).firing &&
    (!decide (s.swDisp = 0) || decide (s.swCtx = s.curCtx)
      || [0, 1, 2, 3].all fun q => decide ((c.tq q).ctxOcc s.curCtx.toNat = 0))

/-- The trigger that fires now: the lowest-numbered ready one (R232). -/
def Core.firingOf (c : Core) : Option Nat :=
  if c.f.st.run && c.standWaits && !c.switchReady then (List.range 8).find? c.triggerReady else none

/-- The oldest on-chip token of context k popped from queue i into V(28 + i) and G(24 + i) (R233, R240). -/
def Core.popToken (c : Core) (w i : Nat) (k : BitVec 2) : Core :=
  let q := c.tq i
  match findIdxOpt (fun (x : Token) => decide (x.ctx = k)) q.toks 0 with
  | none => c
  | some (j, x) =>
    let c1 := c.setTq i { q with toks := dropAt q.toks j }
    let c2 := c1.modTh 1 fun th =>
      (th.wv (BitVec.ofNat 5 (28 + i)) (BitVec.ofNat 512 (natOfBytes x.data))).wg (BitVec.ofNat 5 (24 + i))
        (BitVec.ofNat 32 x.data.length)
    c2.tokenCredit w q.src.toNat x.port

/-- The firing of trigger i (R233). -/
def Core.fire (c : Core) (w i : Nat) : Core :=
  let x := c.f.st.trigger i
  let c1 := (bitsOf 4 (fldN x 0 4)).foldl (fun c q => c.popToken w q c.f.st.curCtx) c
  let c2 := c1.modTh 1 fun th => { th with pc := BitVec.ofNat 17 (4 * fldN x 16 7), firing := true, fbuf := [], bubble := 0 }
  (c2.bump (cntStand 0) 1).clearStall

/-! ## Context switches -/

/-- FLUSH of context k: on-chip tokens discarded, extension tokens marked (R244). -/
def Core.flushCtx (c : Core) (w : Nat) (k : BitVec 2) : Core :=
  [0, 1, 2, 3].foldl (fun c i =>
    let q := c.tq i
    let gone := q.toks.filter fun x => decide (x.ctx = k)
    let q' := { q with toks := q.toks.filter fun x => !decide (x.ctx = k),
                       ext := q.ext.map fun x => if x.ctx = k then { x with flush := true } else x }
    (c.setTq i q').creditAll w q.src.toNat 7 (gone.map (·.port))) c

/-- The pending switch takes place (R244, R245). -/
def Core.doSwitch (c : Core) (w : Nat) : Core :=
  if !c.switchReady then c
  else
    let s := c.f.st
    let c1 := if s.swDisp = 2 then c.flushCtx w s.curCtx else c
    (c1.modSt fun y => { y with curCtx := s.swCtx, swPend := false }).bump (cntStand 8) 1

/-- Why a CTXSW could not be carried out (R243). -/
def Stand.badSwitch (s : Stand) (ctx disp : BitVec 2) : Bool := !s.mode || decide (disp = 3) || !s.valid ctx.toNat

/-- CTXSW (R243). -/
def opCtxsw (e : Env) (t : Nat) (ctx disp : BitVec 2) (c : Core) : Res Core :=
  if 1 < t ∨ c.f.st.badSwitch ctx disp then c.illegal e t
  else if c.f.st.swPend then .hold 7
  else .ok (c.modSt fun y => { y with swPend := true, swCtx := ctx, swDisp := disp })

/-! ## The other instructions -/

/-- TSEND (R236, R237). -/
def opTsend (e : Env) (t : Nat) (port : BitVec 3) (va : BitVec 5) (len : BitVec 4) (rel : Bool) (c : Core) : Res Core :=
  let p := c.tport port.toNat
  if 1 < t ∨ (t = 1 ∧ !c.f.st.mode) ∨ !p.en then c.illegal e t
  else if rel && !c.relFree t then .hold 7
  else if p.bal = 0 then .hold 9
  else
    let data := bytesOf (8 * len.toNat) ((c.th t).rv va)
    let pkt := c.packetTo e.w p.tgt.toNat false data.length (.token port p.queue c.f.st.curCtx data)
    let c1 := ((c.setTport port.toNat { p with bal := p.bal - 1 }).bump (cntStand 1) 1).clearStall
    .ok (if rel then c1.queueRel t (c.releaseOf t (some p.tgt.toNat) (.pkt pkt)) else c1.sendPkt pkt)

/-- TEND (R234). -/
def opTend (e : Env) (t : Nat) (c : Core) : Res Core :=
  if t ≠ 1 ∨ !c.f.st.mode ∨ !(c.th 1).firing then c.illegal e t
  else c.thOp 1 fun th => { th with firing := false }

/-- The check of a STAND capability (R253). -/
def standCheck (x : Cap) : Option CapReason :=
  match capUse x 7 permCTL with
  | some r => some r
  | none => if x.len = 0 then some .bounds else none

/-- TDONE (R253): the request goes to the module, LAST_DONE records the code. -/
def opTdone (t : Nat) (cs : BitVec 4) (ga : BitVec 5) (c : Core) : Res Core :=
  let th := c.th t
  let x := th.rc cs
  let id := c.f.st.id.toNat
  match standCheck x with
  | some r => .fault c (capFault th.pc r cs x 0)
  | none =>
    if id < x.ubase ∨ x.ubase + x.len ≤ id then
      .fault c (capFault th.pc .bounds cs x (BitVec.ofNat 32 id - BitVec.ofNat 32 x.ubase))
    else
      let code := fld (th.rg ga) 0 8
      let c1 := c.modSt fun y => { y with doneCode := code, doneValid := true }
      .ok { c1 with t := { c1.t with reqs := c1.t.reqs ++ [.stand 3 id code] } }

/-- STCTL (R253): the request goes to the module. -/
def opStctl (t : Nat) (cs : BitVec 4) (op : BitVec 2) (c : Core) : Res Core :=
  let th := c.th t
  let x := th.rc cs
  match standCheck x with
  | some r => .fault c (capFault th.pc r cs x 0)
  | none => .ok { c with t := { c.t with reqs := c.t.reqs ++ [.stand op.toNat x.ubase 0] } }

/-- The word TSTAT reads (Table 10.3): none for a SEL that is illegal. -/
def Core.tstat (c : Core) (sel : Nat) : Option Word :=
  if sel = 0 then some c.f.st.ctl
  else if sel ≤ 4 then some (c.tq (sel - 1)).occ
  else if sel ≤ 12 then some ((c.tport (sel - 5)).bal.setWidth 32)
  else none

/-- TSTAT (Table 10.3). -/
def opTstat (e : Env) (t : Nat) (gd : BitVec 5) (sel : BitVec 4) (c : Core) : Res Core :=
  match c.tstat sel.toNat with
  | none => c.illegal e t
  | some v => c.thOp t fun th => th.wg gd v

/-- The stall monitor trips (R247). -/
def Core.stallTrip (c : Core) : Core :=
  if !c.t.stallDue then c
  else
    let c1 : Core := { c with t := { c.t with stallDue := false } }
    (((c1.modSt fun y => { y with stalled := true }).bump (cntStand 10) 1).raiseAsync 9 1 0).notice .stall

end Sys2Proof.Machine
end

