-- ==== Sys2Proof/Machine/StreamOps.lean ====
section
/-! DEFINITION. The stream engine of a core (R312 to R325). -/
namespace Sys2Proof.Machine

/-- Stream s. -/
def Core.str (c : Core) (s : Nat) : Stream := sget {} c.f.str s
/-- The core with stream s replaced. -/
def Core.setStr (c : Core) (s : Nat) (x : Stream) : Core := { c with f := { c.f with str := sset {} c.f.str s x } }

/-- Cause 6 (Table 13.4): SADDR is the chunk's offset for reasons 6 to 11 (R323). -/
def strFault (pc : BitVec 17) (s : Nat) (reason : Nat) (halted : Bool) (off : Nat) : FaultRec :=
  { cause := 6, spc := pc, sinfo := BitVec.ofNat 32 (reason + 16 * s + 64 * b2n halted)
    saddr := if 6 ≤ reason ∧ reason ≤ 11 then BitVec.ofNat 32 off else 0 }

/-! ## Opening -/

/-- The descriptor in G(a) to G(a + 3) (Table 13.3). -/
def descOf (th : Thread) (ga : BitVec 5) : Stream :=
  let g0 := th.rg ga
  let g1 := th.rg (ga + 1)
  let g2 := th.rg (ga + 2)
  let g3 := th.rg (ga + 3)
  { off := g0.toNat + 2 ^ 32 * fldN g1 0 16, inner := fldN g1 16 16, outer := fldN g2 0 24, chunk := fldN g2 24 7,
    dir := bitOf g2 31, total := fldN g3 0 24, slots := fldN g3 24 6, resumable := bitOf g3 30 }

/-- Whether every descriptor field lies in its range (Table 13.3). -/
def descOk (th : Thread) (ga : BitVec 5) : Bool :=
  let d := descOf th ga
  decide (1 ≤ d.inner ∧ 1 ≤ d.chunk ∧ d.chunk ≤ 64 ∧ 1 ≤ d.total ∧ 2 ≤ d.slots ∧ d.slots ≤ 32)
    && !bitOf (th.rg (ga + 3)) 31

/-- The end, as an offset from CM.BASE, of the chunk that ends highest (R314). -/
def Stream.highest (d : Stream) : Nat :=
  let r := (d.total - 1) / d.inner
  let last := d.chunkOff (d.total - 1) + 64 * d.chunk
  if r = 0 then last else max last (d.chunkOff (r * d.inner - 1) + 64 * d.chunk)

/-- The check of CM (R314, step 3). -/
def memCapUse (cm : Cap) (dir : Bool) : Option CapReason :=
  capUse cm (if cm.kind = 6 then 6 else 5) (if dir then permWR else permRD)

/-- The checks of SOPEN in order (R314, steps 2 to 8): the first fault. -/
def Core.sopenCheck (c : Core) (e : Env) (th : Thread) (s : Nat) (cm cr : BitVec 4) (ga : BitVec 5) : Option FaultRec :=
  let m := th.rc cm
  let r := th.rc cr
  let d := { descOf th ga with cm := m, cr := r }
  let six := fun k => some (strFault th.pc s k false 0)
  if (c.str s).st ≠ 0 then six 1
  else match memCapUse m d.dir with
    | some x => some (capFault th.pc x cm m 0)
    | none =>
      match capUse r 1 (if d.dir then permRD else permWR) with
      | some x => some (capFault th.pc x cr r 0)
      | none =>
        if r.ubase % 64 ≠ 0 then some (capFault th.pc .align cr r (BitVec.ofNat 32 r.ubase))
        else if r.len < d.slots * 64 * d.chunk then some (capFault th.pc .bounds cr r (BitVec.ofNat 32 r.ubase))
        else if !descOk th ga then six 2
        else if (m.ubase + d.off) % 64 ≠ 0 then six 3
        else if m.len < d.highest then
          some (capFault th.pc .bounds cm m (BitVec.ofNat 32 (d.highest - 64 * d.chunk)))
        else if d.resumable && !e.resumable then six 4
        else none

/-- SOPEN (R313, R314). -/
def opSopen (e : Env) (t : Nat) (s : BitVec 2) (cm cr : BitVec 4) (ga : BitVec 5) (c : Core) : Res Core :=
  let th := c.th t
  match c.sopenCheck e th s.toNat cm cr ga with
  | some f => .fault c f
  | none => .ok (c.setStr s.toNat
      { descOf th ga with st := 1, owner := BitVec.ofNat 2 t, cm := th.rc cm, cr := th.rc cr })

/-! ## Chunks -/

/-- Whether part of chunk j is still unanswered: of a read stream, a request that has been made again does not count (R318, R322). -/
def Stream.waiting (x : Stream) (j : Nat) : Bool :=
  (x.out.any fun r => decide (r.chunk = j) && (!r.stale || x.dir)) || x.redo.any fun r => decide (r.1 = j)

/-- Whether chunk j has been requested whole and answered (R316). -/
def Stream.landed (x : Stream) (j : Nat) : Bool := decide (j < x.iss) && !x.waiting j

/-- The chunks of a read stream whose slots are free again (R316, R317). -/
def Stream.freed (x : Stream) : Nat := x.next - b2n x.heldSlot

/-- Whether the slot that a write stream returns next is free (R318). -/
def Stream.slotFree (x : Stream) : Bool :=
  decide (x.next < x.slots) || !x.unacked.any fun p => decide (p.1 + x.slots = x.next)

/-- The stream aborted on chunk j: no further request goes, and the committed chunks of which none is outstanding are given up (R135, R321). -/
def Stream.abort (x : Stream) (j reason : Nat) : Stream :=
  { x with st := 4, faultChunk := BitVec.ofNat 24 j, reason := BitVec.ofNat 4 reason, notified := false, redo := []
           unacked := x.unacked.filter fun p => x.out.any fun r => decide (r.chunk = p.1) }

/-- A fault on chunk j: the stream aborts, or halts when RESUMABLE (R321, R322). -/
def Core.streamFault (c : Core) (s j p reason : Nat) : Core :=
  let x := c.str s
  let c1 := c.bump (cntStr 3) 1
  if x.resumable then
    let fc := if x.st = 3 then min x.faultChunk.toNat j else j
    let again := fc = j ∨ x.st ≠ 3
    let y := { x with
      st := 3, faultChunk := BitVec.ofNat 24 fc, reason := if again then BitVec.ofNat 4 reason else x.reason,
      redo := x.redo ++ [(j, p)] }
    let c2 := c1.setStr s y
    if x.st = 3 then c2 else c2.notice (.streamHalt s j (BitVec.ofNat 4 reason) (x.chunkAddr j))
  else
    let c2 := c1.setStr s (x.abort j reason)
    if c.f.st.mode then c2.notice (.streamFault s (BitVec.ofNat 4 reason)) else c2

/-! ## Requests -/

/-- The request a stream has to issue: chunk and part (R312, R316, R318, R322). -/
def Stream.nextReq (x : Stream) : Option (Nat × Nat) :=
  if 16 ≤ x.out.length then none
  else
    let limit := if x.st = 3 then x.faultChunk.toNat else 2 ^ 24
    let cand := match x.redo with
      | r :: _ => some r
      | [] =>
        let open_ := if x.dir then decide (x.iss < x.commit) else !x.closing && decide (x.iss < x.total ∧ x.iss < x.freed + x.slots)
        if open_ then some (x.iss, x.issPart) else none
    match cand with
    | none => none
    | some r =>
      if (x.st = 1 ∨ (x.st = 2 ∧ x.dir) ∨ x.st = 3) ∧ r.1 < limit then some r else none

/-- The stream past the request (j, p): the redo list, or the issue position, moves on. -/
def Stream.took (x : Stream) (j : Nat) : Stream :=
  match x.redo with
  | _ :: rest => { x with redo := rest }
  | [] =>
    if x.issPart + 1 < (x.parts j).length then { x with issPart := x.issPart + 1 }
    else { x with iss := x.iss + 1, issPart := 0 }

/-- The stream whose turn it is: the first in rotation with something to issue (R312). -/
def Core.turn (c : Core) : Option (Nat × Nat × Nat) :=
  (List.range 4).findSome? fun i =>
    let s := (c.f.strTurn.toNat + i) % 4
    (c.str s).nextReq.map fun r => (s, r.1, r.2)

/-- The request whose turn it is leaves, or fails on its address or on its scratchpad read (R303, R312, R315, R318). resolve maps an
address of a memory capability to a node and an address there, or to a reason. -/
def Core.issueReq (c : Core) (w : Nat) (resolve : Cap → Nat → Nat ⊕ (Node × Nat × Bool)) : Core :=
  match c.turn with
  | none => c
  | some (s, j, p) =>
    let x := c.str s
    let (o, n) := x.part j p
    let y := x.took j
    let c1 : Core := { c.setStr s y with f := { (c.setStr s y).f with strTurn := BitVec.ofNat 2 (s + 1) } }
    match resolve x.cm (x.chunkAddr j + o) with
    | .inl reason => c1.streamFault s j p reason
    | .inr (node, addr, yx) =>
      let id := c1.f.strId
      let send := fun (c : Core) (bytes : Nat) (body : Body) =>
        let z := { c.str s with out := (c.str s).out ++ [{ id := id, chunk := j, part := p }] }
        let c2 := ((c.setStr s z).bump (cntStr 0) 1).bump (cntStr 1) n
        ({ c2 with f := { c2.f with strId := id + 1 } } : Core).sendPkt
          (mkPacket (.core w) node yx false bytes body)
      if x.dir then
        match c1.readSpad (x.slotAddr j + o) n with
        | (some _, _, c2) => c2.streamFault s j p 10
        | (none, bs, c2) => send c2 n (.wreq id s c.t.epoch addr bs)
      else send c1 1 (.rreq id s c.t.epoch addr n)

/-! ## Replies -/

/-- The outstanding request an answer belongs to; none for one of an earlier epoch, stream or reissue (R320, R322). -/
def Core.reqOf (c : Core) (id s epoch : Nat) : Option SReq :=
  if epoch ≠ c.t.epoch then none else (c.str s).out.find? fun r => decide (r.id = id)

/-- The stream with an outstanding request answered. -/
def Stream.answered (x : Stream) (id : Nat) : Stream := { x with out := x.out.filter fun r => !decide (r.id = id) }

/-- A read reply (R316, R320, R321): its bytes land in their slot. -/
def Core.landReply (c : Core) (id s epoch : Nat) (fault : BitVec 4) (data : List Byte) : Core :=
  match c.reqOf id s epoch with
  | none => c
  | some r =>
    let x := c.str s
    let c1 := c.setStr s (x.answered id)
    if x.st = 4 ∨ r.stale then c1
    else if fault ≠ 0 then c1.streamFault s r.chunk r.part fault.toNat
    else c1.routerWrite (x.slotAddr r.chunk + (x.part r.chunk r.part).1) data

/-- A 64-byte piece of a read reply, at offset o of its part (R289, R316): its bytes land, and the last piece answers the request. -/
def Core.landPiece (c : Core) (id s epoch o : Nat) (data : List Byte) (last : Bool) : Core :=
  match c.reqOf id s epoch with
  | none => c
  | some r =>
    let x := c.str s
    let c1 := if last then c.setStr s (x.answered id) else c
    if x.st = 4 ∨ r.stale then c1
    else c1.routerWrite (x.slotAddr r.chunk + (x.part r.chunk r.part).1 + o) data

/-- The chunk's commit acknowledged, when no part of it is unanswered; of an aborted stream no more is sent (R135, R318, R321). -/
def Stream.ackChunk (x : Stream) (j : Nat) : Stream :=
  if x.landed j || (decide (x.st = 4) && !x.waiting j) then { x with unacked := x.unacked.filter fun p => !decide (p.1 = j) } else x

/-- A write acknowledgement (R318, R321). -/
def Core.landStreamAck (c : Core) (id s epoch : Nat) (fault : BitVec 4) : Core :=
  match c.reqOf id s epoch with
  | none => c
  | some r =>
    let x := (c.str s).answered id
    if fault ≠ 0 ∧ x.st ≠ 4 ∧ !r.stale then (c.setStr s x).streamFault s r.chunk r.part fault.toNat
    else c.setStr s (x.ackChunk r.chunk)

/-- A reply or acknowledgement that the router of a cleared grove discards: the stream fails with CLEARED (R320). -/
def Core.loseReply (c : Core) (id s epoch : Nat) : Core :=
  match c.reqOf id s epoch with
  | none => c
  | some r =>
    let x := (c.str s).answered id
    if x.st = 4 then c.setStr s (x.ackChunk r.chunk) else (c.setStr s x).streamFault s r.chunk r.part 11

/-! ## SNEXT, SCLOSE, SRESUME, SSTAT -/

/-- The slot of the previous SNEXT freed, or committed as the next chunk (R317, R318). -/
def Stream.settle (x : Stream) (t : Nat) : Stream :=
  if !x.heldSlot then x
  else if x.dir then { x with heldSlot := false, commit := x.commit + 1, unacked := x.unacked ++ [(x.commit, t)] }
  else { x with heldSlot := false }

/-- The end of a stream: 0xFFFF_FFFF, DONE (R317, R318). -/
def Stream.ended (x : Stream) : Bool := if x.dir then decide (x.commit = x.total) else decide (x.next = x.total)

/-- SNEXT (R317, R318, R319, R321, R322). -/
def opSnext (t : Nat) (stream : BitVec 2) (gd : BitVec 5) (c : Core) : Res Core :=
  let s := stream.toNat
  let th := c.th t
  let x := c.str s
  let six := fun (c : Core) (k : Nat) (h : Bool) =>
    Res.fault c (strFault th.pc s k h (x.chunkOff x.faultChunk.toNat))
  if x.st = 0 then six c 13 false
  else if t ≠ 0 ∧ x.owner.toNat ≠ t then six c 5 false
  else if x.st = 4 then
    if x.notified then six c 12 false else six (c.setStr s { x with notified := true }) x.reason.toNat false
  else
    let y := x.settle t
    if y.st = 3 ∧ y.faultChunk.toNat ≤ y.next then
      if y.notified then .wait (c.setStr s y) 11
      else six (c.setStr s { y with notified := true }) y.reason.toNat true
    else if y.ended then (c.setStr s { y with st := 2 }).thOp t fun z => z.wg gd 0xFFFFFFFF
    else if (if y.dir then y.slotFree else y.landed y.next) then
      (c.setStr s { y with next := y.next + 1, heldSlot := true }).thOp t fun z =>
        z.wg gd (BitVec.ofNat 32 (y.slotAddr y.next))
    else .wait (c.setStr s y) 11

/-- Whether nothing of the stream is outstanding (R319): for a write stream in service, every committed chunk is acknowledged. -/
def Stream.quiet (x : Stream) : Bool := x.out.isEmpty && (x.unacked.isEmpty || decide (x.st = 3))

/-- SCLOSE (R319, R321). -/
def opSclose (t : Nat) (stream : BitVec 2) (c : Core) : Res Core :=
  let s := stream.toNat
  let th := c.th t
  let x := c.str s
  if x.st = 0 then .ok c
  else if t ≠ 0 ∧ x.owner.toNat ≠ t then .fault c (strFault th.pc s 5 false 0)
  else if x.dir ∧ x.st = 4 ∧ !x.notified then
    .fault (c.setStr s { x with notified := true }) (strFault th.pc s x.reason.toNat false (x.chunkOff x.faultChunk.toNat))
  else if x.quiet then .ok (c.setStr s {})
  else .wait (c.setStr s { x with closing := true, heldSlot := false }) 11

/-- The unanswered chunks from FAULT_CHUNK on, in order (R322). -/
def Stream.unanswered (x : Stream) : List Nat :=
  let fc := x.faultChunk.toNat
  (((x.redo.map (·.1)) ++ (x.out.filter fun r => !r.stale).map (·.chunk)).filter fun j => decide (fc ≤ j)).eraseDups.mergeSort

/-- A halted stream back to OPEN: every unanswered chunk from FAULT_CHUNK on is issued again whole, as far as it had been issued, in chunk order;
its requests in flight stay outstanding and their answers change nothing more (R319, R322). -/
def Stream.resume (x : Stream) : Stream :=
  if x.st ≠ 3 then x
  else
    let upTo := fun (j : Nat) => if j = x.iss then x.issPart else (x.parts j).length
    { x with
      st := 1, notified := false, redo := x.unanswered.flatMap fun j => (List.range (upTo j)).map fun p => (j, p)
      out := x.out.map fun r => if x.faultChunk.toNat ≤ r.chunk then { r with stale := true } else r }

/-- SRESUME (R319, R322). -/
def opSresume (t : Nat) (stream : BitVec 2) (c : Core) : Res Core :=
  let s := stream.toNat
  let x := c.str s
  if x.st ≠ 0 ∧ t ≠ 0 ∧ x.owner.toNat ≠ t then .fault c (strFault (c.th t).pc s 5 false 0)
  else .ok (c.setStr s x.resume)

/-- READY: landed and unreturned chunks, or free slots (Table 13.6). -/
def Stream.ready (x : Stream) : Nat :=
  if x.st = 0 then 0
  else if x.dir then x.slots - x.unacked.length - b2n x.heldSlot
  else ((List.range x.slots).filter fun i => x.landed (x.next + i)).length

/-- STR_STAT, STR_POS and STR_FAULT (Table 13.6). -/
def Stream.reg (x : Stream) (sel : Nat) : Word :=
  match sel with
  | 0 => BitVec.ofNat 32 (x.st.toNat + 2 ^ 3 * b2n x.dir + 2 ^ 4 * b2n x.resumable + 2 ^ 5 * b2n x.notified
      + 2 ^ 6 * x.owner.toNat + 2 ^ 8 * x.out.length + 2 ^ 13 * x.ready)
  | 1 => BitVec.ofNat 32 x.next
  | _ => BitVec.ofNat 32 (x.faultChunk.toNat + 2 ^ 24 * x.reason.toNat)

/-- SSTAT (Table 13.5). -/
def opSstat (e : Env) (t : Nat) (stream : BitVec 2) (gd : BitVec 5) (sel : BitVec 2) (c : Core) : Res Core :=
  if sel = 3 then c.illegal e t
  else c.thOp t fun th => th.wg gd ((c.str stream.toNat).reg sel.toNat)

/-- STR_CTL ABORT: the stream aborts with reason ABORTED (R321, Table 13.6). -/
def Core.abortStream (c : Core) (s : Nat) : Core :=
  let x := c.str s
  if x.st = 0 ∨ x.st = 4 then c
  else
    let c1 := c.setStr s (x.abort x.next 12)
    if c.f.st.mode then c1.notice (.streamFault s 12) else c1

end Sys2Proof.Machine
end

