-- ==== Sys2Proof/Machine/Run.lean ====
section
/-! DEFINITION. The operation of each instruction, and what it reads, writes and holds of the core (R63, R80, R124). -/
namespace Sys2Proof.Machine

/-- Whether an instruction needs read port A, read port B, the write port (Table 06.1). -/
def opPorts : Op → Bool × Bool × Bool
  | .ldr .. => (true, false, false)
  | .lda .. => (true, false, false)
  | .cld .. => (true, false, false)
  | .recv .. => (true, false, false)
  | .tld .. => (true, false, false)
  | .macd .. => (true, true, false)
  | .vmacd .. => (true, true, false)
  | .vroute .. => (true, false, false)
  | .vdelta .. => (true, true, true)
  | .str .. => (false, false, true)
  | .sta .. => (false, false, true)
  | .cst .. => (false, false, true)
  | .tst .. => (false, false, true)
  | _ => (false, false, false)

/-- The ports that a resumable instruction in progress claims in this die cycle (R124): a TLD read port A and a TST the write port
(R153), a VROUTE read port A and, in a message cycle, read port B (R192), a VDELTA all three (R214). -/
def Running.claims (r : Running) : Bool × Bool × Bool :=
  if r.stopped then (false, false, false)
  else match r.unit.toNat with
    | 1 => (true, false, false)
    | 2 => (false, false, true)
    | 3 => (true, decide (r.wait = 0 ∧ r.pend ≠ []), false)
    | _ => (true, true, true)

/-- The resumable instructions in progress and not stopped. -/
def Core.inProgress (c : Core) : List Running := (c.f.run.toList ++ c.f.mv.toList).filter fun r => !r.stopped

/-- Whether an instruction of thread t needs a port that another thread's resumable instruction claims (R124). -/
def Core.claimHeld (c : Core) (t : Nat) (op : Op) : Bool :=
  c.inProgress.any fun r =>
    let k := r.claims
    let p := opPorts op
    !decide (r.thread.toNat = t) && ((k.1 && p.1) || (k.2.1 && p.2.1) || (k.2.2 && p.2.2))

/-- The operation of an instruction, by thread t. -/
def opRun (e : Env) (t : Nat) : Op → Core → Res Core
  | .alu f gd ga gb s => opAlu t f gd ga gb s
  | .clz gd ga => opClz t gd ga
  | .bperm gd ga gb => opBperm t gd ga gb
  | .cmp ga gb => opCmp t ga gb
  | .aluImm f gd ga s imm => opAluImm t f gd ga s imm
  | .cmpi ga imm => opCmpi t ga imm
  | .movi gd imm => opMovi t gd imm
  | .movhi gd imm => opMovhi t gd imm
  | .shiftImm kind gd ga amount s => opShiftImm t kind gd ga amount s
  | .bfi gd ga pos width => opBfi t gd ga pos width
  | .bfx gd ga pos width sgn => opBfx t gd ga pos width sgn
  | .macd gd z p size => opMacd e t gd z p size
  | .vmacd vd z p ty => opVmacd e t vd z p ty
  | .ldr rd cr ga size imm => opLdr t rd cr ga size imm
  | .str rs cr ga size imm => opStr t rs cr ga size imm
  | .lda rd ag p size => opLda e t rd ag p size
  | .sta rs ag p size => opSta e t rs ag p size
  | .agset ag ga field => opAgset e t ag ga field
  | .agget ag gd field => opAgget t ag gd field
  | .agadd ag imm => opAgadd e t ag imm
  | .agbind ag cr => opAgbind t ag cr
  | .b off => opB t off
  | .bl off => opBl t off
  | .br ga link => opBr t ga link
  | .rdsr gd sr => opRdsr e t gd sr
  | .iflush => opIflush t
  | .vop f vd va vb ty => opVop t f vd va vb ty
  | .vcmp vd va vb cc s ty => opVcmp t vd va vb cc s ty
  | .vbcast vd ga _ ty => opVbcast t vd ga ty
  | .vext gd va ln ty => opVext t gd va ln ty
  | .vins vd ga ln ty => opVins t vd ga ln ty
  | .vred f vd va ty => opVred t f vd va ty
  | .vcvt vd va src dst part rm ovf => opVcvt t vd va src dst part rm ovf
  | .cld cd cb ga => opCld t cd cb ga
  | .cst cs cb ga => opCst t cs cb ga
  | .cmov cd cs clr => opCmov t cd cs clr
  | .cnarrow cd cs ga gb => opCnarrow t cd cs ga gb
  | .cinfo gd cs field => opCinfo t gd cs field
  | .cstamp cd cs ca ga => opCstamp t cd cs ca ga
  | .credeem cd cs ca => opCredeem t cd cs ca
  | .ctest cs ga => opCtest t cs ga
  | .crevoke ca ga => opCrevoke t ca ga
  | .trap n cs => opTrap e t n cs
  | .rfe csys => opRfe e t csys
  | .ssrd field gd set => opSsrd e t field gd set
  | .sswr field ga set => opSswr e t field ga set
  | .scrd cf cd set => opScrd e t cf cd set
  | .scwr cf cs set => opScwr e t cf cs set
  | .tcfg target fmt shape layout => opTcfg target fmt shape layout
  | .tfree tmask amask => opTfree tmask amask
  | .mstat gd sel => opMstat t gd sel
  | .aclr amask => opAclr amask
  | .azero amask => opAzero amask
  | .tld tile ag p => opTld e t tile ag p
  | .tst tile ag p => opTst e t tile ag p
  | .mma acc ta tb z sp tm => opMma e t acc ta tb z sp tm
  | .aget vd acc pair => opAget t vd acc pair
  | .aput va acc pair => opAput t va acc pair
  | .vroute gn gb cc fin p => opVroute e t gn gb cc fin p
  | .vdelta layer gn => opVdelta e t layer gn
  | .dlframe layer gd ga => opDlframe e t layer gd ga
  | .ctxsw ctx disp => opCtxsw e t ctx disp
  | .tsend port va len rel => opTsend e t port va len rel
  | .tend => opTend e t
  | .tdone cs ga => opTdone t cs ga
  | .stctl cs op => opStctl t cs op
  | .tstat gd sel => opTstat e t gd sel
  | .mput size r idx => opMput t size r idx
  | .send cs ga len rel => opSend e t cs ga len rel
  | .recv cs ga vd gd => opRecv t cs ga vd gd
  | .cinc cs ga gb imm => opCinc t cs ga gb imm
  | .cwait cs ga gb wide => opCwait t cs ga gb wide
  | .crd cs ga gd hi => opCrd t cs ga gd hi
  | .chstat cs ga gd side => opChstat t cs ga gd side
  | .sopen stream cm cr ga => opSopen e t stream cm cr ga
  | .snext stream gd => opSnext t stream gd
  | .sclose stream => opSclose t stream
  | .sresume stream => opSresume t stream
  | .sstat stream gd sel => opSstat e t stream gd sel

/-- The operation, held while another thread's resumable instruction claims a port that it needs (R124). -/
def runOp (e : Env) (t : Nat) (op : Op) (c : Core) : Res Core :=
  if c.claimHeld t op then .hold 7 else opRun e t op c

/-! ## What an instruction reads and produces (R63, R80) -/

/-- General registers by number. -/
def gs (l : List (BitVec 5)) : List RegRef := l.map fun i => .g i.toNat
/-- Vector registers by number. -/
def vs (l : List (BitVec 5)) : List RegRef := l.map fun i => .v i.toNat
/-- Capability registers by number. -/
def cs (l : List (BitVec 4)) : List RegRef := l.map fun i => .c i.toNat

/-- The four flags. -/
def flagsAll : List RegRef := [.flag 3, .flag 2, .flag 1, .flag 0]
/-- N and Z. -/
def flagsNZ : List RegRef := [.flag 3, .flag 2]

/-- The flags that a condition reads (Table 03.3). -/
def condReads (k : BitVec 4) : List RegRef :=
  match k.toNat with
  | 0 => []
  | 1 => [.flag 2]
  | 2 => [.flag 2]
  | 3 => [.flag 3, .flag 0]
  | 4 => [.flag 3, .flag 0]
  | 5 => [.flag 2, .flag 3, .flag 0]
  | 6 => [.flag 2, .flag 3, .flag 0]
  | 7 => [.flag 1]
  | 8 => [.flag 1]
  | 9 => [.flag 1, .flag 2]
  | 10 => [.flag 1, .flag 2]
  | 11 => [.flag 3]
  | 12 => [.flag 3]
  | 13 => [.flag 0]
  | 14 => [.flag 0]
  | _ => []

/-- Whether a register ALU function reads the carry (Table 03.4). -/
def aluReadsFlags (f : Alu) : Bool := f == .adc || f == .sbc

/-- The flags that a register or immediate ALU function with S writes (Table 03.4). -/
def aluWrites (f : Alu) : List RegRef :=
  if f == .add || f == .adc || f == .sub || f == .sbc then flagsAll else flagsNZ

/-- Whether a VCVT keeps elements of its destination, and so reads it: a destination narrower than the source, neither BS8 (R49). -/
def vcvtKeeps (src dst : BitVec 4) : Bool :=
  !decide (src = 10) && !decide (dst = 10) && decide (fmtWidth dst.toNat < fmtWidth src.toNat)

/-- The registers that an instruction of thread th reads (R63); for an access through a generator, also its C register. -/
def opReads (th : Thread) : Op → List RegRef
  | .alu f _ ga gb _ => gs [ga, gb] ++ if aluReadsFlags f then [.flag 1] else []
  | .clz _ ga => gs [ga]
  | .bperm gd ga gb => gs [gd, ga, gb]
  | .cmp ga gb => gs [ga, gb]
  | .aluImm _ _ ga _ _ => gs [ga]
  | .cmpi ga _ => gs [ga]
  | .movi .. => []
  | .movhi gd _ => gs [gd]
  | .shiftImm _ _ ga _ _ => gs [ga]
  | .bfi gd ga _ _ => gs [gd, ga]
  | .bfx _ ga _ _ _ => gs [ga]
  | .macd gd z _ _ => gen 0 ++ gen 1 ++ if z then [] else [.gm gd.toNat]
  | .vmacd vd z _ ty => gen 0 ++ gen 1 ++ if z then [] else [if ty = 0 then .vf vd.toNat else .vm vd.toNat]
  | .ldr _ cr ga _ _ => cs [cr] ++ gs [ga]
  | .str rs cr ga size _ => cs [cr] ++ gs [ga] ++ if size = 5 then vs [rs] else gs [rs]
  | .lda _ ag _ _ => gen ag.toNat
  | .sta rs ag _ size => gen ag.toNat ++ if size = 5 then vs [rs] else gs [rs]
  | .agset ag ga _ => gs [ga] ++ [.ag ag.toNat]
  | .agget ag _ _ => [.ag ag.toNat]
  | .agadd ag _ => [.ag ag.toNat]
  | .agbind ag _ => [.ag ag.toNat]
  | .b _ => []
  | .bl _ => []
  | .br ga _ => gs [ga]
  | .rdsr .. => []
  | .iflush => []
  | .vop f vd va vb _ => vs ([va] ++ (if f == .abs then [] else [vb]) ++ if f == .fma || f == .sel then [vd] else [])
  | .vcmp _ va vb _ _ _ => vs [va, vb]
  | .vbcast _ ga _ _ => gs [ga]
  | .vext _ va _ _ => vs [va]
  | .vins vd ga _ _ => vs [vd] ++ gs [ga]
  | .vred _ _ va _ => vs [va]
  | .vcvt vd va src dst _ _ _ => vs [va] ++ if vcvtKeeps src dst then vs [vd] else []
  | .cld _ cb ga => cs [cb] ++ gs [ga]
  | .cst c cb ga => cs [c, cb] ++ gs [ga]
  | .cmov _ c _ => cs [c]
  | .cnarrow _ c ga gb => cs [c] ++ gs [ga, ga + 1, gb]
  | .cinfo _ c _ => cs [c]
  | .cstamp _ c ca ga => cs [c, ca] ++ gs [ga]
  | .credeem _ c ca => cs [c, ca]
  | .ctest c ga => cs [c] ++ gs [ga]
  | .crevoke ca ga => cs [ca] ++ gs [ga]
  | .trap _ c => cs [c]
  | .rfe c => cs [c]
  | .ssrd .. => []
  | .sswr _ ga _ => gs [ga]
  | .scrd .. => []
  | .scwr _ c _ => cs [c]
  | .tcfg .. => []
  | .tfree .. => []
  | .mstat .. => []
  | .aclr _ => []
  | .azero _ => []
  | .tld _ ag _ => gen ag.toNat
  | .tst tile ag _ => gen ag.toNat ++ [.tile tile.toNat]
  | .mma _ ta tb _ sp tm => [.tile ta.toNat, .tile tb.toNat] ++ if sp = 0 then [] else [.tile tm.toNat]
  | .aget .. => []
  | .aput va _ _ => vs [va]
  | .vroute gn gb cc _ _ => gs [gn, gb] ++ cs [cc] ++ gen 0 ++ gen 1
  | .vdelta _ gn => gs [gn] ++ gen 0 ++ gen 1 ++ gen 2 ++ gen 3
  | .dlframe _ _ ga => gs [ga]
  | .ctxsw .. => []
  | .tsend _ va _ _ => vs [va]
  | .tend => []
  | .tdone c ga => cs [c] ++ gs [ga]
  | .stctl c _ => cs [c]
  | .tstat .. => []
  | .mput size r _ => if size then vs [r] else gs [r]
  | .send c ga _ _ => cs [c] ++ gs [ga]
  | .recv c ga _ _ => cs [c] ++ gs [ga]
  | .cinc c ga gb imm => cs [c] ++ gs [ga] ++ if imm then [] else gs [gb]
  | .cwait c ga gb wide => cs [c] ++ gs [ga, gb] ++ if wide then gs [gb + 1] else []
  | .crd c ga _ _ => cs [c] ++ gs [ga]
  | .chstat c ga _ _ => cs [c] ++ gs [ga]
  | .sopen _ cm cr ga => cs [cm, cr] ++ gs [ga, ga + 1, ga + 2, ga + 3]
  | .snext .. => []
  | .sclose _ => []
  | .sresume _ => []
  | .sstat .. => []
where
  /-- A generator and the C register it is bound to. -/
  gen (k : Nat) : List RegRef :=
    .ag k :: match (sget {} th.ag k).cap with
      | some i => [.c i.toNat]
      | none => []

/-- Latency of a VADD to VSUBS result (Table 03.9). -/
def vopLatency (f : VFn) (ty : BitVec 3) : Nat :=
  if f == .and || f == .or || f == .xor || f == .sel then 2
  else if ty = 4 then 4
  else if f == .mul || f == .fma then 3 else 2

/-- A general register produced with a latency, also for a MACD that accumulates into it; a result for G0 is discarded. -/
def gp (i : BitVec 5) (n : Nat) : List (RegRef × Nat) := if i = 0 then [] else [(.g i.toNat, n), (.gm i.toNat, n)]
/-- A vector register produced with a latency: also for a VMACD that accumulates into it. -/
def vp (i : BitVec 5) (n : Nat) : List (RegRef × Nat) := [(.v i.toNat, n), (.vm i.toNat, n), (.vf i.toNat, n)]

/-- The results of an instruction whose latency is above 1, with it (R80, R78, Table 07.5). -/
def opResults : Op → List (RegRef × Nat)
  | .alu f gd _ _ s =>
    if f == .mul || f == .mulhs || f == .mulhu then gp gd 3 ++ (if s then flagsNZ.map fun r => (r, 3) else []) else []
  | .macd gd _ _ _ => if gd = 0 then [] else [(.g gd.toNat, 5)]
  | .vmacd vd _ _ ty =>
    if ty = 0 then [(.v vd.toNat, 8), (.vm vd.toNat, 8), (.vf vd.toNat, 4)]
    else [(.v vd.toNat, 6), (.vf vd.toNat, 6)]
  | .ldr rd _ _ size _ => if size = 5 then vp rd 4 else gp rd 4
  | .lda rd _ _ size => if size = 5 then vp rd 4 else gp rd 4
  | .vop f vd _ _ ty => vp vd (vopLatency f ty)
  | .vcmp vd _ _ _ s _ => vp vd 2 ++ if s then flagsAll.map fun r => (r, 2) else []
  | .vbcast vd _ _ _ => vp vd 2
  | .vext gd _ _ _ => gp gd 2
  | .vins vd _ _ _ => vp vd 2
  | .vred _ vd _ ty => vp vd (if ty = 4 then 8 else 4)
  | .vcvt vd _ src dst _ _ _ => vp vd (if src = 10 ∨ dst = 10 then 4 else 3)
  | .cld cd _ _ => [(.c cd.toNat, 4)]
  | .aget vd _ _ => vp vd 2
  | .recv _ _ vd gd => vp vd 4 ++ gp gd 4
  | _ => []

/-- The general, vector and C registers and the flags an instruction produces: a later result of the same register takes the
place of an earlier one that is not yet readable (R63). -/
def opRenews : Op → List RegRef
  | .alu f gd _ _ s => g gd ++ if s then aluWrites f else []
  | .clz gd _ => g gd
  | .bperm gd _ _ => g gd
  | .cmp .. => flagsAll
  | .aluImm f gd _ s _ => g gd ++ if s then aluWrites f else []
  | .cmpi .. => flagsAll
  | .movi gd _ => g gd
  | .movhi gd _ => g gd
  | .shiftImm _ gd _ _ s => g gd ++ if s then flagsNZ else []
  | .bfi gd .. => g gd
  | .bfx gd .. => g gd
  | .macd gd _ _ _ => g gd
  | .vmacd vd _ _ _ => v vd
  | .ldr rd _ _ size _ => if size = 5 then v rd else g rd
  | .lda rd _ _ size => if size = 5 then v rd else g rd
  | .agget _ gd _ => g gd
  | .bl _ => g 31
  | .br _ link => if link then g 31 else []
  | .rdsr gd _ => g gd
  | .vop _ vd _ _ _ => v vd
  | .vcmp vd _ _ _ s _ => v vd ++ if s then flagsAll else []
  | .vbcast vd .. => v vd
  | .vext gd .. => g gd
  | .vins vd .. => v vd
  | .vred _ vd _ _ => v vd
  | .vcvt vd .. => v vd
  | .cld cd .. => [.c cd.toNat]
  | .cmov cd .. => [.c cd.toNat]
  | .cnarrow cd .. => [.c cd.toNat]
  | .cinfo gd .. => g gd
  | .cstamp cd .. => [.c cd.toNat]
  | .credeem cd .. => [.c cd.toNat]
  | .ctest .. => [.flag 2]
  | .ssrd _ gd _ => g gd
  | .scrd _ cd _ => [.c cd.toNat]
  | .mstat gd _ => g gd
  | .aget vd .. => v vd
  | .dlframe _ gd _ => g gd
  | .tstat gd _ => g gd
  | .recv _ _ vd gd => v vd ++ g gd
  | .crd _ _ gd _ => g gd
  | .chstat _ _ gd _ => g gd
  | .snext _ gd => g gd
  | .sstat _ gd _ => g gd
  | _ => []
where
  /-- A general register and its use as an accumulator. -/
  g (i : BitVec 5) : List RegRef := [.g i.toNat, .gm i.toNat]
  /-- A vector register and its uses as an accumulator. -/
  v (i : BitVec 5) : List RegRef := [.v i.toNat, .vm i.toNat, .vf i.toNat]

end Sys2Proof.Machine
end

