-- ==== Sys2Proof/WellFormed.lean ====
section
/-! DEFINITION. The encoding check of R57 on a decoded instruction: every check that depends only on the instruction word. -/
namespace Sys2Proof

/-- Whether a VCVT pair is in Table 02.5. -/
def vcvtPair (src dst : Nat) : Bool :=
  if dst = 9 then decide (src ∈ [7, 8, 5, 6, 10, 1, 2, 3, 4])
  else if src = 9 then decide (dst ∈ [7, 8, 5, 6, 10, 1, 2, 3, 4])
  else if src = 1 ∧ dst = 0 then true
  else if src = 0 ∧ dst = 1 then true
  else decide (src ∈ [1, 2, 3, 4]) && decide (dst ∈ [1, 2, 3, 4]) && !decide (src = dst)

/-- The largest PART of a VCVT pair (R49). -/
def vcvtMaxPart (src dst : Nat) : Nat :=
  let w := fun (x : Nat) => match x with
    | 0 => 4 | 1 => 8 | 2 => 8 | 3 => 16 | 4 => 32 | 5 => 8 | 6 => 8 | 7 => 16 | 8 => 16 | _ => 32
  if src = 10 ∨ dst = 10 then 0 else max (w src) (w dst) / min (w src) (w dst) - 1

/-- Lanes of a vector TYPE (R75); 0 for the reserved codes. -/
def laneCount (ty : Nat) : Nat :=
  match ty with
  | 0 => 64 | 1 => 64 | 2 => 32 | 3 => 16 | 4 => 16 | _ => 0

/-- Whether an access SIZE is legal: loads 0 to 5, stores 0, 2, 4 and 5 (R72). -/
def sizeOk (store : Bool) (size : Nat) : Bool :=
  if store then decide (size ∈ [0, 2, 4, 5]) else decide (size ≤ 5)

/-- Whether TCFG's FMT, SHAPE and LAYOUT are a combination of Table 07.1 or Table 08.1, or an accumulator's (R148, R173). -/
def tcfgOk (target fmt shape layout : Nat) : Bool :=
  if target ≤ 7 then
    match layout with
    | 0 => decide (fmt ∈ [0, 1, 2, 5, 6, 7, 8, 10])
    | 1 => decide (fmt ∈ [0, 1, 2, 5, 6, 7, 8]) && decide (shape = 0)
    | 2 => decide (fmt ∈ [0, 1, 2, 5, 6, 7, 8]) && decide (shape = 0)
    | 3 => decide (fmt ∈ [0, 1, 2, 5, 6, 7, 8])
    | 4 => decide (fmt = 1) && decide (shape = 0)
    | _ => false
  else decide (target ≤ 11) && decide (fmt = 4 ∨ fmt = 9) && decide (shape = 0) && decide (layout = 0)

/-- The checks of R57 that depend on the word alone, beyond reserved opcodes and bits. -/
def Op.wf : Op → Bool
  | .aluImm f _ _ _ _ => decide (f = .add ∨ f = .and ∨ f = .or ∨ f = .xor)
  | .bfi _ _ pos width | .bfx _ _ pos width _ =>
    decide (1 ≤ width.toNat ∧ width.toNat ≤ 32 ∧ pos.toNat + width.toNat ≤ 32)
  | .ldr _ _ _ size _ | .lda _ _ _ size => sizeOk false size.toNat
  | .str _ _ _ size _ | .sta _ _ _ size => sizeOk true size.toNat
  | .agset _ _ field | .agget _ _ field => decide (field.toNat ≤ 4)
  | .rdsr _ sr => decide (sr.toNat ≤ 4)
  | .vop f _ _ vb ty =>
    decide (ty.toNat ≤ 4) && (!decide (ty = 4) || !decide (f = .adds ∨ f = .subs ∨ f = .shl ∨ f = .shr))
      && (!decide (f = .abs) || decide (vb = 0))
  | .vcmp _ _ _ cc _ ty => decide (cc.toNat ≤ 5) && decide (ty.toNat ≤ 4)
  | .vbcast _ _ lane ty | .vext _ _ lane ty | .vins _ _ lane ty => decide (lane.toNat < laneCount ty.toNat)
  | .vred _ _ _ ty => decide (ty.toNat ≤ 4)
  | .vcvt _ _ src dst part rm _ =>
    vcvtPair src.toNat dst.toNat && decide (rm.toNat ≤ 4) && decide (part.toNat ≤ vcvtMaxPart src.toNat dst.toNat)
  | .cnarrow _ _ ga _ => decide (ga.toNat % 2 = 0)
  | .ssrd field _ _ | .sswr field _ _ => decide (field.toNat ≤ 9)
  | .scrd cf _ _ | .scwr cf _ _ => decide (cf.toNat ≤ 2)
  | .tcfg target fmt shape layout => tcfgOk target.toNat fmt.toNat shape.toNat layout.toNat
  | .mstat _ sel => decide (sel.toNat ≤ 1 ∨ 4 ≤ sel.toNat)
  | .mma _ _ _ _ sp tm => !decide (sp = 0) || decide (tm = 0)
  | .ctxsw _ disp => decide (disp.toNat ≤ 2)
  | .tsend _ _ len _ | .send _ _ len _ => decide (1 ≤ len.toNat ∧ len.toNat ≤ 8)
  | .stctl _ op => decide (op.toNat ≤ 2)
  | .tstat _ sel => decide (sel.toNat ≤ 12)
  | .mput size _ idx => !size || decide (idx = 0)
  | .cwait _ _ gb wide => !wide || decide (gb.toNat % 2 = 0)
  | .sopen _ _ _ ga => decide (ga.toNat % 4 = 0)
  | .sstat _ _ sel => decide (sel.toNat ≤ 2)
  | .alu .. | .clz .. | .bperm .. | .cmp .. | .cmpi .. | .movi .. | .movhi .. | .shiftImm .. | .macd .. | .vmacd ..
  | .agadd .. | .agbind .. | .b .. | .bl .. | .br .. | .iflush | .cld .. | .cst .. | .cmov .. | .cinfo ..
  | .cstamp .. | .credeem .. | .ctest .. | .crevoke .. | .trap .. | .rfe .. | .tfree .. | .aclr .. | .azero ..
  | .tld .. | .tst .. | .aget .. | .aput .. | .vroute .. | .vdelta .. | .dlframe .. | .tend | .tdone .. | .recv ..
  | .cinc .. | .crd .. | .chstat .. | .snext .. | .sclose .. | .sresume .. => true

/-- Whether an instruction passes the encoding check under its condition code: code 15 is reserved (R57, Table 03.3). -/
def encOk (k : BitVec 4) (op : Op) : Bool := !decide (k = 15) && op.wf

end Sys2Proof
end

