-- ==== Sys2Proof/Machine/Issue.lean ====
section
/-! DEFINITION. One die cycle of a core: readiness, the slot table, fetch, bank conflicts, issue and the counts of a cycle (R61 to
R64, R83 to R90, R106, R122, R127, R229, R246, R279, R494). -/
namespace Sys2Proof.Machine

/-! ## Fetch -/

/-- Whether thread t is the stand thread of a core in stand mode: it fetches from the context store (R229). -/
def Core.isStand (c : Core) (t : Nat) : Bool := decide (t = 1) && c.f.st.mode

/-- Cause 3 on a fetch (R106). -/
def fetchFault (pc : BitVec 17) (r : CapReason) (cap : Cap) : FaultRec :=
  { cause := 3, spc := pc, sinfo := capSinfo r 15 true false, saddr := saddrOf r pc.toNat, scap := cap }

/-- The check of the fetch of a line through C15 (R106). -/
def Core.fetchCheck (c : Core) (t : Nat) (line : Nat) : Option CapReason :=
  let cap := (c.th t).rc 15
  match capUse cap 1 permEX with
  | some r => some r
  | none => if line < cap.ubase ∨ cap.ubase + cap.len < line + 16 then some .bounds else none

/-- The address of the next instruction to fetch for thread t. -/
def Core.fetchAddr (c : Core) (t : Nat) : Nat := ((c.th t).pc + BitVec.ofNat 17 (4 * (c.th t).fbuf.length)).toNat

/-- The instructions of a line from an address in it: word, and whether its 8-byte word was uncorrectable (R127). -/
def Spad.lineSlots (sp : Spad) (a : Nat) : List FetchSlot :=
  (List.range ((16 - a % 16) / 4)).map fun i =>
    let x := a + 4 * i
    { word := BitVec.ofNat 32 (natOfBytes (readBytes sp.mem x 4)), bad := decide (sget 0 sp.err (x / 8) = 2) }

/-- Thread t's next line read into its buffer, when its check passes (R61, R106, R126, R127). -/
def Core.fetchLine (c : Core) (t : Nat) : Core :=
  let a := c.fetchAddr t
  let line := a / 16 * 16
  match c.fetchCheck t line with
  | some _ => c
  | none =>
    let slots := c.f.spad.lineSlots a
    let c1 := c.noteWords (wordsOf line 16)
    c1.modTh t fun th => { th with fbuf := th.fbuf ++ slots }

/-- What stands at a thread's PC: an instruction word, a fault of its fetch, or nothing in the buffer yet. -/
inductive Head where
  | word (w : Word)
  | fault (f : FaultRec)
  | empty
  deriving Repr

/-- What stands at thread t's PC (R61, R127, R229, R230). -/
def Core.head (c : Core) (t : Nat) : Head :=
  let th := c.th t
  if c.isStand t then
    let off := th.pc.toNat
    if 0x1FC < off then .fault (fetchFault th.pc .bounds {})
    else
      let i := 128 * c.f.st.curCtx.toNat + off / 4
      if sget false c.f.st.storeBad (i / 2) then
        .fault { cause := 4, spc := th.pc, saddr := BitVec.ofNat 32 (0x20000 + 0x200 * c.f.st.curCtx.toNat + off / 8 * 8) }
      else .word (sget 0 c.f.st.store i)
  else match th.fbuf with
    | [] =>
      match c.fetchCheck t (th.pc.toNat / 16 * 16) with
      | some r => .fault (fetchFault th.pc r (th.rc 15))
      | none => .empty
    | s :: _ => if s.bad then .fault (ueFault th.pc (th.pc.toNat / 8)) else .word s.word

/-! ## Readiness -/

/-- Cycles before a register can be read. -/
def Thread.wait (th : Thread) (r : RegRef) : Nat := ((th.busy.filter fun p => decide (p.1 = r)).map (·.2)).foldl max 0

/-- Whether thread t's registers or tiles among some are not yet readable (R63); a tile that another thread's TLD is loading is not
(R153, R154). -/
def Core.pending (c : Core) (t : Nat) (rs : List RegRef) : Bool :=
  rs.any fun r => decide ((c.th t).wait r ≠ 0) || (match r with
    | .tile i => decide (sget 0 c.f.mx.ready i ≠ 0) || c.f.mv.any fun m => !decide (m.thread.toNat = t) && (match m.op with
      | .tld tile _ _ => decide (tile.toNat = i)
      | _ => false)
    | _ => false)

/-- What a thread would do if selected: its STATE, and, when it can issue or fetch, its word and instruction. -/
structure Cand where
  state : Nat
  word : Word := 0
  op : Option (BitVec 4 × Op) := none
  fetch : Bool := false
  fault : Option FaultRec := none
  step : Bool := false                 -- a wait that has an effect in each cycle (R149, R317)

/-- The STATE of thread t at an instruction whose word has been decoded (R63, R87, R89). -/
def Core.opState (c : Core) (e : Env) (t : Nat) (k : BitVec 4) (op : Op) : Cand :=
  let th := c.th t
  let me : Cand := { state := 1, word := e.word, op := some (k, op) }
  if c.pending t (condReads k) then { me with state := 5 }
  else if !encOk k op || (c.breakpoint t).isSome || !condHolds k th.flags then me
  else if c.pending t (opReads th op) then { me with state := 5 }
  else if th.prog.valid && !decide (th.prog.unit.toNat = opUnit op) then me
  else match runOp e t op (c.dropRun t (opUnit op)) with
    | .hold st => { me with state := st }
    | .wait _ st => { me with state := st, step := true }
    | _ => me

/-- Whether an instruction word reads what is not yet readable. -/
def Core.wordPending (c : Core) (t : Nat) (w : Word) : Bool :=
  match decodeOp w with
  | none => false
  | some (k, op) => c.pending t (condReads k) || (condHolds k (c.th t).flags && c.pending t (opReads (c.th t) op))

/-- The ports that resumable instructions in progress claim in this die cycle (R124). -/
def Core.claimed (c : Core) : Bool × Bool × Bool :=
  c.inProgress.foldl (fun (p : Bool × Bool × Bool) r =>
    let q := r.claims
    (p.1 || q.1, p.2.1 || q.2.1, p.2.2 || q.2.2)) (false, false, false)

/-- Thread t's STATE when its next instruction has still to be fetched (R61): a line that a tracked range covers is held (R134), and no
fetch takes place while both read ports are claimed (R124, R214; DESIGN CHOICE, log 37). -/
def Core.fetchState (c : Core) (t : Nat) : Cand :=
  if c.rangeHeld (c.fetchAddr t / 16 * 16) 16 false then { state := unitRange }
  else if c.claimed.1 && c.claimed.2.1 then { state := 7 }
  else { state := 1, fetch := true }

/-- What thread t would do in a die cycle decided on this state (R87, R88, R112, R114). -/
def Core.cand (c : Core) (e : Env) (t : Nat) : Cand :=
  let th := c.th t
  if !c.enabled t then { state := 0 }
  else if c.f.exc.l2double ∨ th.isStopped then { state := 2 }
  else if th.faultHeld then { state := 3 }
  else if th.saveWait.isSome then { state := 4 }
  else if c.isStand t && !th.firing then { state := 8 }
  else if c.running t then { state := 7 }
  else match c.head t with
    | .empty => if th.bubble ≠ 0 then { state := 6 } else c.fetchState t
    | .fault f => if th.bubble ≠ 0 then { state := 6 } else { state := 1, fault := some f }
    | .word w =>
      if th.bubble ≠ 0 then { state := if c.wordPending t w then 5 else 6 }
      else match decodeOp w with
      | none => { state := 1, word := w }
      | some (k, op) => c.opState { e with word := w, whole := false } t k op

/-- Whether a thread waits at a TCFG or TFREE: the unit is not drained, or it was not and the instruction has yet to issue (R149). -/
def Core.waitsDrain (c : Core) (x : Cand) : Bool :=
  (x.step || (decide (x.state = 1) && c.f.mx.tcfgWait)) && (match x.op with
    | some (_, .tcfg ..) => true
    | some (_, .tfree ..) => true
    | _ => false)

/-- The core with its wait for a drained matrix unit decided (R149). -/
def Core.decideDrain (c : Core) (e : Env) : Core :=
  c.modMx fun m => { m with tcfgWait := [0, 1, 2, 3].any fun t => c.waitsDrain (c.cand e t) }

/-- What each thread would do in a die cycle. -/
def Core.cands (c : Core) (e : Env) : List Cand := [0, 1, 2, 3].map fun t => (c.decideDrain e).cand e t

/-- The STATE code that THREAD_STATUS reports. -/
def Cand.code (x : Cand) : Nat := x.state % 16

/-- The thread selected (R84). -/
def selectThread (owner : Nat) (supFirst : Bool) (ready : Nat → Bool) : Option Nat :=
  if ready owner then some owner
  else if supFirst && ready 0 then some 0
  else [1, 2, 3].findSome? fun i => if ready ((owner + i) % 4) then some ((owner + i) % 4) else none

/-- The owner of the entry at the pointer (R83). -/
def ThreadCtl.owner (x : ThreadCtl) : Nat := fldN x.slotTable (2 * x.pointer.toNat) 2

/-! ## Banks -/

/-- The scratchpad accesses of an instruction in the cycle in which it issues: address, bytes (R122). -/
def Core.accesses (c : Core) (t : Nat) : Op → List (Nat × Nat)
  | .ldr _ cr ga size imm => [((regAddress ((c.th t).rc cr) ((c.th t).rg ga) imm size).toNat, sizeBytes size)]
  | .str _ cr ga size imm => [((regAddress ((c.th t).rc cr) ((c.th t).rg ga) imm size).toNat, sizeBytes size)]
  | .lda _ ag _ size => [(((c.th t).rag ag).address.toNat, sizeBytes size)]
  | .sta _ ag _ size => [(((c.th t).rag ag).address.toNat, sizeBytes size)]
  | .macd _ _ _ size => [(((c.th t).rag 0).address.toNat, macBytes size), (((c.th t).rag 1).address.toNat, macBytes size)]
  | .vmacd .. => [(((c.th t).rag 0).address.toNat, 64), (((c.th t).rag 1).address.toNat, 64)]
  | .cld _ cb ga => [(((c.th t).rc cb).ubase + ((c.th t).rg ga).toNat, 16)]
  | .cst _ cb ga => [(((c.th t).rc cb).ubase + ((c.th t).rg ga).toNat, 16)]
  | .recv k ga _ _ =>
    let h := c.chIn (((c.th t).rc k).ubase + ((c.th t).rg ga).toNat)
    match h.q with
    | m :: _ => [(h.qbase.toNat * 512 + 64 * m.slot.toNat, m.len)]
    | [] => []
  | .tld tile ag _ => [(((c.th t).rag ag).address.toNat, (c.tile tile.toNat).rowBytes)]
  | .tst tile ag _ => [(((c.th t).rag ag).address.toNat, (c.tile tile.toNat).rowBytes)]
  | _ => []

/-- The distinct lines of some accesses. -/
def linesOf (acc : List (Nat × Nat)) : List Nat := (acc.flatMap fun p => granulesOf p.1 p.2).eraseDups

/-- The accesses of the unit that a resumable instruction in progress does in this die cycle, its conflicts apart (R122, R152, R213): a
row, a VDELTA's two reads or its map byte. A VROUTE makes none that R122 counts: its run lasts as R192 says. -/
def Core.unitAccesses (c : Core) (r : Running) : List (Nat × Nat) :=
  let ag := fun (k : BitVec 2) => ((c.th r.thread.toNat).rag k).address.toNat
  if r.wait ≠ 0 then []
  else match r.op with
    | .tld tile k _ => [(ag k, (c.tile tile.toNat).rowBytes)]
    | .tst tile k _ => [(ag k, (c.tile tile.toNat).rowBytes)]
    | .vdelta .. => if r.due then [(ag 3, 1)] else [(ag 0, 64), (ag 1, 64)]
    | _ => []

/-- The lines that the access at the head of the router's queue needs (Table 06.1): a message's slot of its ring, a remote write's
bytes, a stream reply's part, a token's extension slot. -/
def Core.landLines (c : Core) (p : Packet) : List Nat :=
  match p.body with
  | .msg _ de _ _ data => granulesOf ((c.chIn de.toNat).qbase.toNat * 512 + 64 * (c.chIn de.toNat).head.toNat) data.length
  | .rwrite _ _ off data _ => granulesOf off.toNat data.length
  | .rrep id s ep fault data =>
    match c.reqOf id s ep with
    | some r => if fault = 0 then granulesOf ((c.str s).slotAddr r.chunk + ((c.str s).part r.chunk r.part).1) data.length else []
    | none => []
  | .token _ q _ data =>
    let x := c.tq q.toNat
    if x.toks.length < 16 ∧ x.ext = [] then [] else granulesOf (x.slotAddr x.extNext) data.length
  | _ => []

/-- The lines of the router-side access that comes next. -/
def Core.headLines (c : Core) : List Nat :=
  match c.t.inbox with
  | [] => []
  | p :: _ => c.landLines p

/-- The conflict cycles that the lines `mine` need beside the lines `others`, which go first: one less than the most distinct lines in one
bank of mine (R122). -/
def bankNeed (mine others : List Nat) : Nat :=
  let all := (mine ++ others).eraseDups
  (mine.map fun l => (all.filter fun x => decide (bankOf (16 * x) = bankOf (16 * l))).length - 1).foldl max 0

/-- The lines that the core holds after n conflict cycles: in each bank the first n of the colliding ones, one always left to read
(log 37). -/
def heldLines (mine : List Nat) (n : Nat) : List Nat :=
  (List.range 16).flatMap fun b =>
    let l := mine.filter fun x => decide (bankOf (16 * x) = b)
    l.take (min n (l.length - 1))

/-- Whether a line's bank is in use by other lines, and not by a read of the same line, which is served with it (R121, R123). -/
def bankBusy (used reads : List Nat) (l : Nat) : Bool :=
  !decide (l ∈ reads) && used.any fun x => decide (bankOf (16 * x) = bankOf (16 * l))

/-! ## The cycle -/

/-- The busy results, the bubbles and the loaded tiles one die cycle older. The cycles of a BRANCH do not pass while the thread is STOPPED
(R87, R488; log 56). -/
def Core.age (c : Core) : Core :=
  let one := fun (c : Core) (t : Nat) => c.modTh t fun th =>
    { th with busy := (th.busy.map fun p => (p.1, p.2 - 1)).filter fun p => decide (p.2 ≠ 0), bubble := if th.isStopped then th.bubble else th.bubble - 1 }
  ([0, 1, 2, 3].foldl one c).modMx fun m => { m with ready := (m.ready.map fun p => (p.1, p.2 - 1)).filter fun p => decide (p.2 ≠ 0) }

/-- A thread whose two cycles of BRANCH have passed stays there until its target line has come (R62, R90). -/
def Core.stayLate (c before : Core) : Core :=
  [0, 1, 2, 3].foldl (fun (c : Core) t =>
    let th := c.th t
    if (before.th t).bubble = 1 ∧ th.bubble = 0 ∧ th.fbuf = [] ∧ !c.isStand t
        ∧ (c.fetchCheck t (c.fetchAddr t / 16 * 16)).isNone then c.modTh t fun y => { y with bubble := 1 } else c) c

/-- The lines that a die cycle has used so far: all of them, and those read; with the read ports left. -/
structure Used where
  lines : List Nat := []
  reads : List Nat := []
  ports : Nat := 2

/-- More lines used, read or not. -/
def Used.add (u : Used) (ls : List Nat) (read : Bool) : Used :=
  { u with lines := u.lines ++ ls, reads := if read then u.reads ++ ls else u.reads }

/-- Thread t's fetch on a free read port, where its line's bank is free or that very line is read (R90, R121, R123). -/
def Core.fetchTry (p : Core × Used) (t : Nat) : Core × Used :=
  let l := p.1.fetchAddr t / 16
  if p.2.ports = 0 ∨ bankBusy p.2.lines p.2.reads l then p
  else (p.1.fetchLine t, { p.2.add [l] true with ports := p.2.ports - 1 })

/-- The fetches of a cycle: BRANCH threads without their target line, then the issuing thread, then others with room, on what is left
of the read ports and banks; a line that a tracked range covers is not fetched (R134); `done` has fetched already (R90, R123). -/
def Core.fetches (c before : Core) (owner : Nat) (issued done : Option Nat) (u : Used) : Core :=
  let order := [owner % 4, (owner + 1) % 4, (owner + 2) % 4, (owner + 3) % 4]
  let can := fun (t : Nat) => c.enabled t && !c.isStand t && decide (done ≠ some t) && decide ((c.th t).fbuf.length ≤ 4 ∧ (c.th t).bubble ≠ 2)
    && (c.fetchCheck t (c.fetchAddr t / 16 * 16)).isNone && !c.rangeHeld (c.fetchAddr t / 16 * 16) 16 false
  let want := (order.filter fun t => decide ((before.th t).bubble ≠ 0) && (c.th t).fbuf.isEmpty) ++ issued.toList ++ order
  ((want.filter can).eraseDups.foldl Core.fetchTry (c, u)).1

/-- The pointer one entry on; a pending table comes due when it wraps (R85, R95). -/
def ThreadCtl.next (x : ThreadCtl) : ThreadCtl :=
  { x with pointer := x.pointer + 1, slotDue := x.slotDue || (decide (x.pointer = 15) && x.slotPend.isSome) }

/-- The results of an issued instruction, readable after their latencies, in place of earlier results of the same registers (R63,
R80). -/
def Core.setBusy (c : Core) (t : Nat) (renewed : List RegRef) (rs : List (RegRef × Nat)) : Core :=
  if renewed.isEmpty && rs.isEmpty then c
  else c.modTh t fun th =>
    { th with busy := (th.busy.filter fun p => decide (p.1 ∉ renewed)) ++ rs.map fun p => (p.1, p.2 - 1) }

/-- What the selected thread did: the core, whether the pointer moves, the lines used in its accesses, whether it only read them, and
the read ports used. -/
structure Acted where
  core : Core
  moves : Bool := true
  lines : List Nat := []
  read : Bool := true
  ports : Nat := 0

/-- Whether an instruction's operation makes its scratchpad accesses: it completes or goes on, or its access finds an error (R59, R64). -/
def Res.accesses (r : Res α) : Bool :=
  match r with
  | .ok _ => true
  | .going _ => true
  | .fault _ f => decide (f.cause = 4)
  | _ => false

/-- Thread t's instruction, decoded, issues or meets a conflict (R85, R122). The lines `others` belong to accesses that go first. -/
def Core.actOp (c : Core) (e : Env) (t : Nat) (k : BitVec 4) (op : Op) (others : List Nat) : Acted :=
  let th := c.th t
  let c0 : Core := { c with f := { c.f with conf := none } }
  let r := runOp e t op (c0.dropRun t (opUnit op))
  let go := encOk k op && condHolds k th.flags && (c.breakpoint t).isNone && !(th.prog.valid && !decide (th.prog.unit.toNat = opUnit op))
    && r.accesses
  let p := opPorts op
  let ls := if go then linesOf (c.accesses t op) else []
  let spent := match c.f.conf with
    | some x => if x.thread = t ∧ x.pc = th.pc then x.spent else 0
    | none => 0
  if spent < bankNeed ls others then
    { core := ({ c with f := { c.f with conf := some ⟨t, th.pc, spent + 1, heldLines ls (spent + 1)⟩ } } : Core).bump (cntPerf 6) 1
      moves := false, lines := ls, read := !p.2.2 }
  else
    match c0.issue Core.post t k (encOk k op) e.word op (runOp e t op) with
    | .held c' _ => { core := c' }
    | .done c' =>
      let ok := go && (match r with
        | .ok _ => true
        | _ => false)
      { core := if ok then c'.setBusy t (opRenews op) (opResults op) else c'
        lines := ls, read := !p.2.2, ports := if go then b2n p.1 + b2n p.2.1 else 0 }

/-- Thread t, selected, fetches, raises its fetch's fault, or issues (R61, R85, R115). A fault of a fetch leaves the progress register to
its entry: no instruction has consumed it. -/
def Core.act (c : Core) (e : Env) (t : Nat) (x : Cand) (others : List Nat) : Acted :=
  let was := (c.th t).stepping
  let c0 : Core := { c with f := { c.f with conf := none } }
  if x.fetch then
    let l := c.fetchAddr t / 16
    let c1 := c0.bump (cntPerf 5) 1
    if bankBusy others [] l then { core := c1 } else { core := c1.fetchLine t, lines := [l], ports := 1 }
  else match x.fault with
    | some f =>
      let c1 := if f.cause = 4 ∧ 0x20000 ≤ f.saddr.toNat then c0.notice (.ctxUe f.saddr) else c0
      { core := (c1.post t { f with prog := (c.th t).prog }).endStep t was }
    | none =>
      match x.op with
      | none => { core := ((c0.modTh t Thread.consume).post t (illegalAt (c.th t).pc x.word)).endStep t was }
      | some (k, op) => c.actOp { e with word := x.word, whole := false } t k op others

/-- The effect of a wait in a cycle: an SNEXT that frees or commits its slot (R317, R318). -/
def Core.background (c : Core) (e : Env) (t : Nat) (x : Cand) : Core :=
  match x.step, x.op with
  | true, some (k, op) =>
    match c.issue Core.post t k (encOk k op) x.word op (runOp { e with word := x.word, whole := false } t op) with
    | .held c' _ => c'
    | .done _ => c
  | _, _ => c

/-- What a resumable instruction in progress does in a die cycle (R114). -/
def Core.unitCycle (c : Core) (r : Running) : Res Core :=
  let t := r.thread.toNat
  let done := (c.th t).prog.progress.toNat
  match r.op with
  | .tld tile k p => c.moveCycle t ⟨true, tile.toNat, k, p, r.word⟩ r.op done r.wait
  | .tst tile k p => c.moveCycle t ⟨false, tile.toNat, k, p, r.word⟩ r.op done r.wait
  | .vroute gn gb cc fin p => c.vrCycle (c.vroute t r.word gn gb cc fin p) done r
  | .vdelta layer gn => c.dlCycle (c.vdelta t r.word layer gn) done r
  | _ => .ok c

/-- What a resumable instruction in progress does until it completes, stops, or waits for the channel (R114). -/
def Core.unitsLeft (c : Core) (r : Running) : Res Core :=
  let t := r.thread.toNat
  let done := (c.th t).prog.progress.toNat
  let idle : Core := { c with f := { c.f with run := none } }
  let rows := fun (m : Move) => moveRows t m ((c.tile m.tile).rows - done) done { c with f := { c.f with mv := none } }
  match r.op with
  | .tld tile k p => rows ⟨true, tile.toNat, k, p, r.word⟩
  | .tst tile k p => rows ⟨false, tile.toNat, k, p, r.word⟩
  | .vroute gn gb cc fin p =>
    let v := c.vroute t r.word gn gb cc fin p
    vrAll v v.fuel done r c
  | .vdelta layer gn =>
    let v := c.vdelta t r.word layer gn
    let c1 := if r.resumed then idle.dlResumed (r.wait + b2n r.due) else idle
    dlFrom v done r.due r.map c1
  | _ => .ok c

/-- A resumable instruction in progress carried on by its core (R114, R482, R485): it completes, goes on, is held by a tracked range, or
stops; how a cause is raised is up to the caller. -/
def Core.carry (c : Core) (raise : Core → Nat → FaultRec → Core) (r : Running) (x : Res Core) : Core :=
  let t := r.thread.toNat
  let was := (c.th t).stepping
  match x with
  | .ok c' => (c'.modTh t Thread.advance).endStep t was
  | .going c' => c'.wentOn c t
  | .hold st => if st = unitRange then c.bump (cntPerf 8) 1 else c
  | .wait c' _ => c'
  | .jump c' => c'
  | .ret c' => c'
  | .fault c' f => (raise (c'.modTh t Thread.consume) t f).endStep t was
  | .watch c' j addr => c'.stopThread t 3 j (bitOf (sget 0 c.f.dbg.wpCtl j) 22) addr

/-- Whether a resumable instruction is still in progress as `r`. -/
def Core.still (c : Core) (r : Running) : Bool := c.inProgress.any fun x => decide (x.unit = r.unit ∧ x.thread = r.thread)

/-- A die cycle of a resumable instruction that was in progress as the cycle began. -/
def Core.carryOn (c : Core) (r : Running) : Core := if c.still r then c.carry Core.post r (c.unitCycle { r with spent := 0 }) else c

/-- A conflict cycle before the next unit of a resumable instruction (R122, R152, R213). -/
def Core.unitConflict (c : Core) (r : Running) : Core :=
  let one := fun (x : Running) => if x.unit = r.unit ∧ x.thread = r.thread then { x with spent := x.spent + 1 } else x
  { c with f := { c.f with run := c.f.run.map one, mv := c.f.mv.map one } }

/-- THREAD_STATUS (Table 04.4). -/
def statusWord (codes : List Nat) (pointer : BitVec 4) : Word :=
  BitVec.ofNat 32 ((codes.zipIdx.map fun p => p.1 * 16 ^ p.2).foldl (· + ·) 0 + 2 ^ 16 * pointer.toNat)

/-- The counts of a cycle in which the threads stand in the given states (Tables 10.5, 11.3, 13.6, 21.5; R246, R279). -/
def Core.countCycle (c : Core) (xs : List Cand) : Core :=
  let on := fun (t : Nat) => c.enabled t
  let st := fun (t : Nat) => (xs.getD t { state := 0 }).state
  let op : Nat → Option Op := fun t => (xs.getD t { state := 0 }).op.map (·.2)
  let isTsend := match op 1 with
    | some (.tsend ..) => decide (st 1 = 9)
    | _ => false
  let sends := ([0, 1, 2, 3].filter fun t => decide (st t = 9) && (match op t with
    | some (.tsend ..) => false
    | _ => true)).length
  let c1 := [0, 1, 2, 3].foldl (fun (c : Core) t =>
    let k := st t % 16
    let a := if on t && bitOf c.t.waitMask k then c.bump (cntPerf (14 + t)) 1 else c
    let b := if st t = 11 then a.bump (cntStr 2) 1 else a
    if st t = unitRange then b.bump (cntPerf 8) 1 else b) c
  let c2 := if sends = 0 then c1 else c1.bump (cntChan 8) 1
  let c3 := if c2.f.st.run && decide (st 1 = 8) && c2.isStand 1 then c2.bump (cntStand 3) 1 else c2
  let c4 := if isTsend then c3.bump (cntStand 2) 1 else c3
  c4

/-- STALL_CNT after a cycle in which the stand thread waits for credit (R246, R247). -/
def Core.countStall (c : Core) (waits : Bool) : Core :=
  if !waits then c
  else
    let n := c.t.stallCnt + 1
    { c with t := { c.t with stallCnt := n, stallDue := c.t.stallDue || decide (n.toNat = 2 ^ c.f.st.stallLog.toNat) } }

/-- QW_CNT after a cycle whose threads stand in the given states (R279). -/
def Core.countQuiet (c : Core) (codes : List Nat) : Core :=
  let h := c.f.ch
  let quiet := h.qwEn && c.enabled 0 && [0, 1, 2, 3].all fun t => !c.enabled t || bitOf h.stateMask (codes.getD t 0)
  if !quiet then { c with t := { c.t with qwCnt := 0 } }
  else
    let n := c.t.qwCnt + 1
    if n.toNat = 2 ^ h.qwLog.toNat then
      let now : BitVec 16 := BitVec.ofNat 16 (statusWord codes 0).toNat
      { c with t := { c.t with qwCnt := 0, qwDue := some now } }
    else { c with t := { c.t with qwCnt := n } }

/-- Whether the core is idle in a cycle (R199). -/
def Core.idle (c : Core) (codes : List Nat) : Bool :=
  ([0, 1, 2, 3].all fun t => !c.enabled t || decide (8 ≤ codes.getD t 0 ∧ codes.getD t 0 ≤ 11))
    && c.f.mx.queue.isEmpty && c.f.mx.check.isNone && c.inProgress.isEmpty
    && ([0, 1, 2, 3].all fun t => (c.th t).relq.isEmpty) && c.f.win.rwOut.isEmpty
    && ([0, 1, 2, 3].all fun s => (sget {} c.f.str s).out.isEmpty) && c.f.spad.wb.isEmpty && !c.t.rused

/-- The router-side access that comes next, after a cycle that has used some banks (R123): one that had not waited is served beside them,
or waits; one that had waited has been served. -/
def Core.routerTurn (c : Core) (head : List Nat) (u : Used) : Core × Used :=
  if head = [] ∨ c.t.rwait = 2 then (c, u)
  else if c.t.rwait = 0 ∧ head.any (bankBusy u.lines []) then (({ c with t := { c.t with rwait := 1 } } : Core).bump (cntPerf 7) 1, u)
  else ({ c with t := { c.t with rwait := 2 } }, u.add head false)

/-- The part of a die cycle in which instructions act: a conflict cycle of a unit, in which nothing issues, or the selected thread's
issue and then the units of the resumable instructions in progress (R84, R85, R114, R122). The core, whether the pointer moves, and what
has been used. -/
def Core.execute (c c0 : Core) (e : Env) (xs : List Cand) (sel : Option Nat) (prio : List Nat) : Core × Bool × Used :=
  let runs := c.inProgress
  let lines := fun (r : Running) => linesOf (c.unitAccesses r)
  let stuck := runs.filter fun r => decide (r.spent < bankNeed (lines r) prio)
  let others := prio ++ runs.flatMap lines
  let claims := b2n c.claimed.1 + b2n c.claimed.2.1
  let base : Used := runs.foldl (fun u r => u.add (lines r) (decide (r.unit ≠ 2))) { lines := prio, ports := 2 - claims }
  if !stuck.isEmpty then
    let c1 := stuck.foldl Core.unitConflict (c0.bump (cntPerf 6) 1)
    ((runs.filter fun r => !decide (r ∈ stuck)).foldl Core.carryOn { c1 with f := { c1.f with conf := none } }, false, base)
  else
    let a : Acted := match sel with
      | none => { core := ({ c0 with f := { c0.f with conf := none } } : Core).bump (cntPerf 4) 1 }
      | some t => c0.act e t (xs.getD t { state := 0 }) others
    let u := base.add a.lines a.read
    (runs.foldl Core.carryOn a.core, a.moves, { u with ports := u.ports - a.ports })

/-- One die cycle of a running core (R84 to R90, R110, R114, R122 to R124). -/
def Core.cycle (c : Core) (e : Env) : Core :=
  let xs := c.cands e
  let codes := xs.map Cand.code
  let owner := c.f.tc.owner
  let ready := fun (t : Nat) => decide (codes.getD t 0 = 1)
  let sel := selectThread owner (c.f.tc.supFirst && decide (c.f.exc.level = 1)) ready
  let head := c.headLines
  let c0 := ((c.decideDrain e).countCycle xs).age
  let (c1, moves, u) := c.execute c0 e xs sel (if c.t.rwait = 1 then head else [])
  let c2 := (xs.zipIdx.foldl (fun (c : Core) p => if some p.2 = sel then c else c.background e p.2 p.1) c1).enterRaised c
  let (c3, u1) := c2.routerTurn head u
  let fetched := sel.filter fun t => (xs.getD t { state := 0 }).fetch
  let c4 := (if moves then c3.fetches c owner sel fetched u1 else c3).stayLate c
  let stalls := match (xs.getD 1 { state := 0 }).op with
    | some (_, .tsend ..) => decide ((xs.getD 1 { state := 0 }).state = 9)
    | _ => false
  let c5 := (c4.countStall stalls).countQuiet codes
  let tc := if moves then c5.f.tc.next else c5.f.tc
  { c5 with
    f := { c5.f with tc := tc }
    t := { c5.t with idleCnt := if c.idle codes then c5.t.idleCnt + 1 else 0, rused := false } }

/-- THREAD_STATUS now (Table 04.4). -/
def Core.threadStatus (c : Core) (e : Env) : Word := statusWord ((c.cands e).map Cand.code) c.f.tc.pointer

end Sys2Proof.Machine
end

