-- ==== Sys2Proof/Config.lean ====
section
/-! DEFINITION. What an implementation or an outside standard fixes and the spec does not: opaque values,
about which nothing can be proved but what holds for all of them (log 8, 9, 10, 12). -/
namespace Sys2Proof

/-- HW_REV of ID_REV: set at manufacture (R333); its value is left free (log 12). -/
opaque Config.hwRev : BitVec 8

/-- ROM_REV of ID_REV and of START_REPORT: set at manufacture (R333, R474) (log 12). -/
opaque Config.romRev : BitVec 8

/-- The elements of an accumulator left undefined by a fence (R160): the n-th free value (log 10). -/
opaque Config.freeAcc : Nat → BitVec 2048

/-- SHA-384 of a byte string (R443, R447, R449), the outside standard (log 8). -/
opaque Config.sha384 : List Byte → BitVec 384

/-- Whether an ECDSA signature on brainpoolP384r1 is valid: key, digest, signature (R443) (log 8). -/
opaque Config.ecdsaOk : List Byte → BitVec 384 → List Byte → Bool

/-- The ECDSA signature bytes of a digest under die d's identity key (R451) (log 8). -/
opaque Config.ecdsaSign : Nat → BitVec 384 → List Byte

/-- The hash of the vendor signing key held in the boot ROM (R443) (log 8). -/
opaque Config.vendorHash : BitVec 384

/-- The identity public key that die d derives from its silicon and the helper data (R446) (log 9). -/
opaque Config.pufKey : Nat → List Byte → List Byte

/-- Whether a point lies on the curve (R452) (log 8). -/
opaque Config.onCurve : List Byte → Bool

/-- The public key of the n-th ephemeral key pair (R452) (log 9). -/
opaque Config.ephPub : Nat → List Byte

/-- The ECDH shared secret of the n-th ephemeral key and a point (R452) (log 8). -/
opaque Config.ecdh : Nat → List Byte → List Byte

/-- HKDF-SHA-384, the extraction from a salt and an input (R452) (log 8). -/
opaque Config.hkdfExtract : List Byte → List Byte → List Byte

/-- HKDF-SHA-384, the expansion of what was extracted, with an info, to a length in bytes (R452, Table 19.5) (log 8). -/
opaque Config.hkdfExpand : List Byte → List Byte → Nat → List Byte

/-- AES-256-GCM decryption: key, nonce, additional data, ciphertext, tag; none when the tag fails (R376, R456). -/
opaque Config.gcmOpen : List Byte → List Byte → List Byte → List Byte → List Byte → Option (List Byte)

/-- AES-256-GCM encryption: ciphertext then 16-byte tag (R376, R456) (log 8). -/
opaque Config.gcmSeal : List Byte → List Byte → List Byte → List Byte → List Byte

/-- GMAC under a key of a byte string (R450) (log 8). -/
opaque Config.gmac : List Byte → List Byte → List Byte

/-- The n-th value of a field that the spec leaves unstated (log 14). -/
opaque Config.freeWord : Nat → BitVec 32

/-- A tile's pattern generator, a 64-bit LFSR of fixed seed, after a number of shift cycles (R419; log 61). -/
opaque Config.lfsr : Nat → BitVec 64

/-- The expected core-field signature for P patterns, which the verified image of a digest carries (R419, R422; log 61). -/
opaque Config.coreSig : BitVec 384 → Nat → BitVec 64

/-- The expected trunk signature of a tile class, by its number of attachment ports, from the boot ROM (R420, R422; log 61). -/
opaque Config.trunkSig : Nat → BitVec 64

/-- The expected signature of a grove row's skip and selector logic, from the boot ROM (R420, R422; log 61). -/
opaque Config.rowSig : BitVec 64

/-- The answer to an ARP request or an IPv6 neighbour solicitation for a port's own addresses: own MAC, IPv4 and IPv6 address, the
frame received; none for any other frame (R371, the outside standards) (log 8). -/
opaque Config.neighbourReply : List Byte → List Byte → List Byte → List Byte → Option (List Byte)

/-- The vendor identifier and the attestation object type of the DOE mailbox (R326) (log 12). -/
opaque Config.doeObject : BitVec 24

/-- Lines that a port's snoop filter holds; the spec gives no size (R330) (log 42). -/
opaque Config.filterLines : Nat

/-- The module's identification code (R463, R498) (log 12). -/
opaque Config.idcode : BitVec 32

end Sys2Proof
end

