-- ==== Sys2Proof/Machine/ConfigSpace.lean ====
section
/-! DEFINITION. The per-core configuration space: what a read returns and clears, what a write does and when it is refused (R7, R8,
R93 to R95, R104, R143, R172, R204, R225, R226, R256, R282, R293, R325, R415, R435, R478, R488, R489, R497). -/
namespace Sys2Proof.Machine

/-- What a configuration access takes from outside the core. -/
structure CfgEnv where
  e : Env
  routeOk : Nat → Bool → Bool           -- target core, ORDER: neither the target nor the route lies in an unavailable grove (R18)
  frameOpen : Nat → Nat → Nat → Bool    -- port, flow, frame stream (R379)
  ident : Nat → Word                    -- the words of the identity, power and temperature registers
  gated : Bool
  inRun : Bool                          -- the core lies in a stand whose run is in progress (R478)
  requester : Nat

/-- A read: its value, and the core after it. -/
abbrev RdOut := Word × Core
/-- A write: the core after it, and whether it was accepted. -/
abbrev WrOut := Core × Bool

/-- An accepted write. -/
def yes (c : Core) : WrOut := (c, true)
/-- A refused write. -/
def no (c : Core) : WrOut := (c, false)

/-- Register i of a block at base with stride and count: (number, offset within). -/
def blk (off base stride count : Nat) : Option (Nat × Nat) :=
  if base ≤ off ∧ off < base + stride * count then some ((off - base) / stride, (off - base) % stride) else none

/-- The low word of a 64-bit count, latching its high word for the requester; or the latched high word (R202). The manual does not say
what a requester reads that has latched none: the model reads 0 (DESIGN CHOICE, log 34). -/
def Core.rdCount (c : Core) (x : CfgEnv) (off : Nat) (v : DWord) (high : Bool) : RdOut :=
  let key := 65536 * x.requester + (if high then off else off + 4)
  if high then (sget 0 c.t.latch key, c)
  else (fld v 0 32, { c with t := { c.t with latch := sset 0 c.t.latch key (fld v 32 32) } })

/-- A word built from fields: value and lowest bit. -/
def pack (fs : List (Nat × Nat)) : Word := BitVec.ofNat 32 ((fs.map fun p => p.1 * 2 ^ p.2).foldl (· + ·) 0)

/-! ## Threads and capabilities (chapters 04 and 05) -/

/-- The most recently accepted slot table (R94). -/
def ThreadCtl.table (x : ThreadCtl) : Word := x.slotPend.getD x.slotTable
/-- Whether thread t owns an entry of a table. -/
def ownsEntry (tab : Word) (t : Nat) : Bool := (List.range 16).any fun i => decide (fldN tab (2 * i) 2 = t)
/-- A refused SLOT_TABLE or THREAD_CTL write (R94). -/
def Core.slotErr (c : Core) (code : Nat) : Core :=
  { c with f := { c.f with tc := { c.f.tc with cfgErr := BitVec.ofNat 4 code } } }
/-- A refused write of a stand register (R256). -/
def Core.standErr (c : Core) (code index : Nat) : Core := c.modSt fun s => { s with cfgErr := BitVec.ofNat 8 (code + 16 * index) }

/-- SLOT_TABLE (R94, R95). -/
def Core.writeSlotTable (c : Core) (v : Word) : WrOut :=
  if [0, 1, 2, 3].any fun t => c.enabled t && !ownsEntry v t then no (c.slotErr 1)
  else yes { c with f := { c.f with tc := { c.f.tc with slotPend := some v, slotDue := false } } }

/-- Whether thread t's enable bit may be cleared (R94): a thread that a STEP has released is not STOPPED. -/
def Core.mayDisable (c : Core) (t : Nat) : Bool :=
  (c.th t).isStopped || c.f.exc.l2double || (c.isStand t && !c.f.st.run && c.standWaits)

/-- THREAD_CTL (R94, R95, R228). -/
def Core.writeThreadCtl (c : Core) (v : Word) : WrOut :=
  let en : BitVec 4 := fld v 0 4
  let on := fun (t : Nat) => bitOf en t
  if [0, 1, 2, 3].any fun t => on t && !ownsEntry c.f.tc.table t then no (c.slotErr 1)
  else if en &&& 14 ≠ 0 ∧ !on 0 then no (c.slotErr 2)
  else if [0, 1, 2, 3].any fun t => c.enabled t && !on t && !c.mayDisable t then no (c.slotErr 3)
  else if c.f.st.mode && [2, 3].any (fun t => on t && !c.enabled t) then no (c.standErr 1 0)
  else
    let c1 := [0, 1, 2, 3].foldl (fun (c' : Core) t => if c.enabled t && !on t then c'.disableThread t else c') c
    let c2 : Core := { c1 with f := { c1.f with tc := { c1.f.tc with en := en, supFirst := bitOf v 4 } } }
    yes ([0, 1, 2, 3].foldl (fun (c' : Core) t => if !c.enabled t && on t then c'.startThread t else c') c2)

/-- Word i of a capability. -/
def Cap.word (x : Cap) (i : Nat) : Word := lane 32 x.bits i
/-- The capability with word i written: its tag cleared (Table 05.6). -/
def Cap.setWord (x : Cap) (i : Nat) (v : Word) : Cap := ⟨false, setLane 32 x.bits i v⟩

/-- The code of the first failing check of a TAG write (R104). -/
def Cap.tagCode (x : Cap) : Nat :=
  if kindBits x.kind = 0 then 1
  else if x.perm &&& ~~~(BitVec.ofNat 12 (kindPerm x.kind)) ≠ 0 then 2
  else if !x.inLimit then 3
  else if x.sealWord ≠ 0 then 4
  else if !x.unusedZero then 5
  else 0

/-- Capability slot n, offset o within it (R104). -/
def Core.writeSlot (c : Core) (n o : Nat) (v : Word) : WrOut :=
  let x := sget {} c.f.exc.slots n
  let put := fun (y : Cap) => { c with f := { c.f with exc := { c.f.exc with slots := sset {} c.f.exc.slots n y } } }
  if o < 0x10 then yes (put (x.setWord (o / 4) v))
  else if o = 0x10 then
    if !bitOf v 0 then yes (put { x with tag := false })
    else
      let k := x.tagCode
      if k = 0 then yes (put { x with tag := true })
      else
        let c1 := put { x with tag := false }
        no { c1 with f := { c1.f with exc := { c1.f.exc with capErr := BitVec.ofNat 8 (k + 16 * n) } } }
  else yes c

/-- A capability field of the L2 save set, offset o within it: never tagged by a configuration write (R104). -/
def Core.writeL2Cap (c : Core) (k o : Nat) (v : Word) : Core :=
  let s := c.f.exc.l2
  if o < 0x10 then c.putSet 2 (s.setCap k ((s.cap k).setWord (o / 4) v))
  else if o = 0x10 ∧ !bitOf v 0 then c.putSet 2 (s.setCap k { s.cap k with tag := false })
  else c

/-- L2_RELEASE: an RFE at L2 without the checks; ignored with the set unoccupied (R118). In L2_DOUBLE, which only a core reset ends
(R112), the manual does not say what it does: the model releases the set as at any other time, and L2_DOUBLE stays (DESIGN CHOICE, log
60). -/
def Core.writeL2Release (c : Core) (v : Word) : Core := if bitOf v 0 && c.f.exc.l2.occ then c.release 2 else c

/-- Reads of 0x0040 to 0x02FF. L1_BUSY of LEVEL_STATUS is the set's own occupied bit: the manual does not say that it reads 1 where the set
only counts as occupied (R110; DESIGN CHOICE, log 60). -/
def Core.rdExc (c : Core) (x : CfgEnv) (off : Nat) : RdOut :=
  let e := c.f.exc
  if off = 0x40 then (c.f.tc.table, c)
  else if off = 0x44 then (pack [(c.f.tc.en.toNat, 0), (b2n c.f.tc.supFirst, 4)], c)
  else if off = 0x48 then (c.threadStatus x.e, c)
  else if off = 0x4C then (c.f.tc.cfgErr.setWidth 32, c.slotErr 0)
  else if off = 0x90 then
    (pack [(e.level.toNat, 0), (b2n e.l1.occ, 2), (e.l1.thread.toNat, 3), (b2n e.l2.occ, 5), (b2n e.l2double, 6),
      (b2n (c.th 1).saveWait.isSome, 9), (b2n (c.th 2).saveWait.isSome, 10), (b2n (c.th 3).saveWait.isSome, 11)], c)
  else if off = 0x94 then
    (e.capErr.setWidth 32, { c with f := { c.f with exc := { e with capErr := 0 } } })
  else match blk off 0x80 4 4 with
    | some (t, _) => ((sget 0 e.startPc t).setWidth 32, c)
    | none =>
      match blk off 0xA0 0x20 11 with
      | some (n, o) =>
        let s := sget {} e.slots n
        (if o < 0x10 then s.word (o / 4) else if o = 0x10 then BitVec.ofNat 32 (b2n s.tag) else 0, c)
      | none =>
        match blk off 0x200 4 10 with
        | some (i, _) => (e.l2.field i, c)
        | none =>
          match blk off 0x240 0x20 3 with
          | some (k, o) =>
            let s := e.l2.cap k
            (if o < 0x10 then s.word (o / 4) else if o = 0x10 then BitVec.ofNat 32 (b2n s.tag) else 0, c)
          | none =>
            match blk off 0x2A0 4 16 with
            | some (k, _) => (pack [((c.gen (2 * k)).toNat, 0), ((c.gen (2 * k + 1)).toNat, 16)], c)
            | none => (0, c)

/-- Writes of 0x0040 to 0x02FF. -/
def Core.wrExc (c : Core) (off : Nat) (v : Word) : WrOut :=
  if off = 0x40 then c.writeSlotTable v
  else if off = 0x44 then c.writeThreadCtl v
  else if off = 0x98 then yes (c.writeL2Release v)
  else match blk off 0x80 4 4 with
    | some (t, _) =>
      yes { c with f := { c.f with exc := { c.f.exc with startPc := sset 0 c.f.exc.startPc t (pcOfWord v) } } }
    | none =>
      match blk off 0xA0 0x20 11 with
      | some (n, o) => c.writeSlot n o v
      | none =>
        match blk off 0x200 4 10 with
        | some (i, _) => yes (c.putSet 2 (c.f.exc.l2.setField i v))
        | none =>
          match blk off 0x240 0x20 3 with
          | some (k, o) => yes (c.writeL2Cap k o v)
          | none => yes c

/-! ## Windows and credit (chapter 06) -/

/-- A refused window write (R143). -/
def Core.winErr (c : Core) (code index side : Nat) : Core :=
  { c with f := { c.f with win := { c.f.win with cfgErr := BitVec.ofNat 9 (code + 16 * index + 256 * side) } } }

/-- Whether two byte ranges overlap. -/
def overlap (a n b m : Nat) : Bool := decide (n ≠ 0 ∧ m ≠ 0 ∧ a < b + m ∧ b < a + n)

/-- IWIN_CTL (R143). -/
def Core.writeIwinCtl (c : Core) (w : Nat) (v : Word) : WrOut :=
  let x := c.iwin w
  let len : BitVec 10 := fld v 0 10
  let cn : BitVec 6 := fld v 10 6
  let y := { x with len := len, cntr := cn, en := bitOf v 16 }
  if x.en && y.en then
    if x.len = len ∧ x.cntr = cn then yes c else no (c.winErr 3 w 0)
  else if !y.en then yes (c.setIwin w y)
  else if len = 0 ∨ 512 < x.base.toNat + len.toNat then no (c.winErr 1 w 0)
  else if (List.range 16).any fun i => decide (i ≠ w) && (c.iwin i).en
      && overlap x.base.toNat len.toNat (c.iwin i).base.toNat (c.iwin i).len.toNat then no (c.winErr 2 w 0)
  else yes (c.setIwin w y)

/-- OCRED_CTL (R143). -/
def Core.writeOcredCtl (c : Core) (x : CfgEnv) (i : Nat) (v : Word) : WrOut :=
  let o := c.ocred i
  let lim : BitVec 10 := fld v 0 10
  let cn : BitVec 6 := fld v 10 6
  let y := { o with limit := lim, cntr := cn, en := bitOf v 16, rwErr := o.rwErr && !bitOf v 17, credOvf := o.credOvf && !bitOf v 18 }
  if o.en && y.en then
    if o.limit = lim ∧ o.cntr = cn then yes (c.setOcred i y) else no (c.winErr 3 i 1)
  else if !y.en then yes (c.setOcred i y)
  else if (List.range 16).any fun k => decide (k ≠ i) && (c.ocred k).en && decide ((c.ocred k).tgt = o.tgt ∧ (c.ocred k).win = o.win) then
    no (c.winErr 4 i 1)
  else if lim = 0 ∨ 512 < lim.toNat then no (c.winErr 5 i 1)
  else if !coreOk o.tgt.toNat || !x.routeOk o.tgt.toNat (c.orderTo o.tgt.toNat) then no (c.winErr 6 i 1)
  else yes (c.setOcred i { y with bal := BitVec.ofNat 18 (256 * lim.toNat) })

/-- Reads of 0x0300 to 0x053F. -/
def Core.rdWin (c : Core) (off : Nat) : RdOut :=
  let sp := c.f.spad
  if off = 0x300 then (sp.ce.setWidth 32, { c with f := { c.f with spad := { sp with ce := 0 } } })
  else if off = 0x304 then (sp.errAddr, c)
  else if off = 0x308 then (sp.ue.setWidth 32, { c with f := { c.f with spad := { sp with ue := 0 } } })
  else if off = 0x30C then (c.f.win.cfgErr.setWidth 32, c.winErr 0 0 0)
  else match blk off 0x340 0x10 16 with
    | some (w, o) =>
      let x := c.iwin w
      (match o with
       | 0 => pack [(x.base.toNat, 8)]
       | 4 => pack [(x.len.toNat, 0), (x.cntr.toNat, 10), (b2n x.en, 16)]
       | 8 => x.src.setWidth 32
       | _ => 0, c)
    | none =>
      match blk off 0x440 0x10 16 with
      | some (i, o) =>
        let x := c.ocred i
        (match o with
         | 0 => pack [(x.tgt.toNat, 0), (x.win.toNat, 18)]
         | 4 => pack [(x.limit.toNat, 0), (x.cntr.toNat, 10), (b2n x.en, 16), (b2n x.rwErr, 17), (b2n x.credOvf, 18)]
         | 8 => x.bal.setWidth 32
         | _ => 0, c)
      | none => (0, c)

/-- Writes of 0x0300 to 0x053F. -/
def Core.wrWin (c : Core) (x : CfgEnv) (off : Nat) (v : Word) : WrOut :=
  match blk off 0x340 0x10 16 with
  | some (w, o) =>
    let i := c.iwin w
    let y := if o = 0 then { i with base := fld v 8 9 } else { i with src := fld v 0 18 }
    if o = 4 then c.writeIwinCtl w v
    else if o = 0 ∨ o = 8 then
      if i.en ∧ y ≠ i then no (c.winErr 3 w 0) else yes (c.setIwin w y)
    else yes c
  | none =>
    match blk off 0x440 0x10 16 with
    | some (k, o) =>
      let i := c.ocred k
      let y := { i with tgt := fld v 0 18, win := fld v 18 4 }
      if o = 4 then c.writeOcredCtl x k v
      else if o = 0 then
        if i.en ∧ y ≠ i then no (c.winErr 3 k 1) else yes (c.setOcred k y)
      else yes c
    | none => yes c

/-! ## Matrix unit and checking (chapters 07 and 18) -/

/-- CHECK_CFG (R435). -/
def Core.writeCheckCfg (c : Core) (v : Word) : WrOut :=
  if 10 < fldN v 0 4 then no (c.modMx fun m => { m with cfgRefused := true })
  else yes { c with t := { c.t with checkS := fld v 0 4, checkEn := bitOf v 4 } }

/-- Reads of 0x0540 to 0x05FF. -/
def Core.rdMx (c : Core) (x : CfgEnv) (off : Nat) : RdOut :=
  if off = 0x540 then (pack [(c.t.checkS.toNat, 0), (b2n c.t.checkEn, 4)], c)
  else if off = 0x544 then
    (pack [(c.f.mx.last.toNat, 0), (b2n c.f.mx.cfgRefused, 2)], c.modMx fun m => { m with cfgRefused := false })
  else if off = 0x548 then (BitVec.ofNat 32 c.f.mx.n, c)
  else if off = 0x580 then (c.mstat 0, c)
  else if off = 0x584 then (c.mstat 1, c.modMx fun m => { m with tce := 0, tue := 0 })
  else match blk off 0x550 8 6 with
    | some (i, o) => c.rdCount x off (sget 0 c.f.mx.ccnt i) (o == 4)
    | none =>
      match blk off 0x590 4 4 with
      | some (i, _) => (c.mstat (4 + i), c)
      | none =>
        match blk off 0x5A0 4 8 with
        | some (i, _) => (c.mstat (8 + i), c)
        | none => (0, c)

/-! ## Sparsity and routing (chapter 08) -/

/-- The core with f applied to its routing registers. -/
def Core.modSp (c : Core) (f : Sparsity → Sparsity) : Core := { c with f := { c.f with sp := f c.f.sp } }
/-- A refused write of a routing register (R204). -/
def Core.spErr (c : Core) (code index : Nat) : Core := c.modSp fun s => { s with cfgErr := BitVec.ofNat 10 (code + 16 * index) }
/-- Whether a VROUTE is in progress; a stopped one does not count (R193). -/
def Core.routing (c : Core) : Bool := c.inProgress.any fun r => decide (r.unit = 3)

/-- Whether the zero map of window w would overlap its window or pass 0x1_FFFF (R204): one bit for each 64-byte line. -/
def Core.mapBad (c : Core) (w : Nat) : Bool :=
  let x := c.iwin w
  let a := (sget 0 c.f.sp.zmap w).toNat * 8
  let n := (4 * x.len.toNat + 7) / 8
  decide (2 ^ 17 < a + n) || overlap a n (256 * x.base.toNat) (256 * x.len.toNat)

/-- RT_CFG (R204). -/
def Core.writeRtCfg (c : Core) (v : Word) : WrOut :=
  let ex := fldN v 0 7
  let k := fldN v 8 3
  if ex = 0 ∨ 64 < ex ∨ k = 0 ∨ 4 < k ∨ ex < k then no (c.spErr 1 0)
  else if c.routing then no (c.spErr 2 0)
  else yes (c.modSp fun s => { s with experts := fld v 0 7, topk := fld v 8 3, minEn := bitOf v 11, payload := fld v 16 3 })

/-- SP_CNT_CLR: every counter of Tables 08.6, 10.5, 11.3, 13.6, 18.5 and 21.5 (R202, R255, R281, R325, R435, R494). -/
def Core.clearCounters (c : Core) (v : Word) : Core :=
  if !bitOf v 0 then c
  else ({ c with t := { c.t with cnt := [] } } : Core).modMx fun m => { m with ccnt := [] }

/-- Reads of 0x0600 to 0x083F. -/
def Core.rdSp (c : Core) (x : CfgEnv) (off : Nat) : RdOut :=
  let s := c.f.sp
  match off with
  | 0x600 => (pack [(s.experts.toNat, 0), (s.topk.toNat, 8), (b2n s.minEn, 11), (s.payload.toNat, 16)], c)
  | 0x604 => (s.thresh, c)
  | 0x608 => (s.zrOut, c)
  | 0x60C => (s.zrIn.setWidth 32, c)
  | 0x610 => (s.tokenEp, c)
  | 0x614 => (s.exitFwd, c)
  | 0x618 => (fld s.live 0 32, c)
  | 0x61C => (fld s.live 32 32, c)
  | 0x620 => (pack [(b2n c.t.idleEn, 0), (b2n x.gated, 1)], c)
  | 0x624 => (s.cfgErr.setWidth 32, c.spErr 0 0)
  | _ =>
    match blk off 0x640 4 16 with
    | some (w, _) => (pack [((sget 0 s.zmap w).toNat, 3)], c)
    | none =>
      match blk off 0x680 4 64 with
      | some (e, _) => ((s.entry e).setWidth 32, c)
      | none =>
        match blk off 0x780 8 17 with
        | some (i, o) => c.rdCount x off (sget 0 c.t.cnt (cntSp i)) (o == 4)
        | none => (0, c)

/-- Writes of 0x0600 to 0x083F. The placement of a window's map (code 4) is tested where its ZR_IN bit is set, from 0 to 1, and not at a
later write of ZMAP_w or of a disabled window's base and length, of which R204 says nothing (DESIGN CHOICE, log 34). -/
def Core.wrSp (c : Core) (off : Nat) (v : Word) : WrOut :=
  match off with
  | 0x600 => c.writeRtCfg v
  | 0x604 => if c.routing then no (c.spErr 2 0) else yes (c.modSp fun s => { s with thresh := v })
  | 0x608 => yes (c.modSp fun s => { s with zrOut := v })
  | 0x60C =>
    let new : BitVec 16 := fld v 0 16
    let chg := c.f.sp.zrIn ^^^ new
    match (List.range 16).find? fun w => bitOf chg w && (c.iwin w).en with
    | some w => no (c.spErr 3 w)
    | none =>
      match (List.range 16).find? fun w => bitOf new w && bitOf chg w && c.mapBad w with
      | some w => no (c.spErr 4 w)
      | none => yes (c.modSp fun s => { s with zrIn := new })
  | 0x610 => yes (c.modSp fun s => { s with tokenEp := v })
  | 0x614 => yes (c.modSp fun s => { s with exitFwd := v })
  | 0x618 => yes (c.modSp fun s => { s with live := setLane 32 s.live 0 v })
  | 0x61C => yes (c.modSp fun s => { s with live := setLane 32 s.live 1 v })
  | 0x620 => yes { c with t := { c.t with idleEn := bitOf v 0 } }
  | 0x628 => yes (c.clearCounters v)
  | _ =>
    match blk off 0x640 4 16 with
    | some (w, _) =>
      if (c.iwin w).en ∧ sget 0 c.f.sp.zmap w ≠ fld v 3 14 then no (c.spErr 3 w)
      else yes (c.modSp fun s => { s with zmap := sset 0 s.zmap w (fld v 3 14) })
    | none =>
      match blk off 0x680 4 64 with
      | some (e, _) =>
        if c.routing then no (c.spErr 2 e) else yes (c.modSp fun s => { s with expert := sset 0 s.expert e (fld v 0 6) })
      | none => yes c

/-! ## Delta layers (chapter 09) -/

/-- A refused write of a delta register (R226). -/
def Core.dlErr (c : Core) (code l : Nat) : Core :=
  { c with f := { c.f with dl := { c.f.dl with cfgErr := BitVec.ofNat 8 (code + 16 * l) } } }
/-- DL_LAYER (R206, R226). -/
def Core.writeDlLayer (c : Core) (l : Nat) (v : Word) : WrOut :=
  let x := c.dl l
  let ty : BitVec 3 := fld v 0 3
  let ki : BitVec 8 := fld v 4 8
  let en := bitOf v 22
  if ty = 3 ∨ 4 < ty.toNat then no (c.dlErr 1 l)
  else if ki = 0 then no (c.dlErr 2 l)
  else if x.en ∧ (x.type ≠ ty ∨ x.keyInt ≠ ki) then no (c.dlErr 4 l)
  else if c.deltaBusy l then no (c.dlErr 5 l)
  else
    let y := { x with type := ty, keyInt := ki, en := en }
    yes (c.setDl l (if en ∧ !x.en then { y with pos := ki - 1, keyNow := true } else y))

/-- DL_THR (R226). An FP32 threshold of −0 is refused as negative: the manual does not say whether a zero with its sign bit set is (DESIGN
CHOICE, log 30). -/
def Core.writeDlThr (c : Core) (l : Nat) (v : Word) : WrOut :=
  let x := c.dl l
  let bad := if x.type = 4 then bitOf v 31 || decide (fldN v 23 8 = 255) else !decide (fldN v 16 16 = 0)
  if bad then no (c.dlErr 3 l)
  else if c.deltaBusy l then no (c.dlErr 5 l)
  else yes (c.setDl l { x with thr := v })

/-- DL_CNT_CLR (Table 09.5). -/
def Core.clearDelta (c : Core) (v : Word) : Core :=
  if !bitOf v 0 then c
  else
    let c1 := (List.range 16).foldl (fun (c : Core) l => c.setDl l { c.dl l with run := [], snap := [] }) c
    { c1 with f := { c1.f with dl := { c1.f.dl with resumeCyc := 0 } } }

/-- Reads of 0x0840 to 0x0B7F. -/
def Core.rdDl (c : Core) (off : Nat) : RdOut :=
  if off = 0x840 then (c.f.dl.cfgErr.setWidth 32, c.dlErr 0 0)
  else if off = 0x848 then (c.f.dl.resumeCyc, { c with f := { c.f with dl := { c.f.dl with resumeCyc := 0 } } })
  else match blk off 0x880 0x10 16 with
    | some (l, o) =>
      let x := c.dl l
      (match o with
       | 0 => pack [(x.type.toNat, 0), (x.keyInt.toNat, 4), (x.pos.toNat, 12), (b2n x.keyNow, 20), (b2n x.lastKey, 21), (b2n x.en, 22)]
       | 4 => x.thr
       | _ => 0, c)
    | none =>
      match blk off 0x980 0x20 16 with
      | some (l, o) => (if o < 0x10 then sget 0 (c.dl l).run (o / 4) else sget 0 (c.dl l).snap ((o - 0x10) / 4), c)
      | none => (0, c)

/-- Writes of 0x0840 to 0x0B7F. -/
def Core.wrDl (c : Core) (off : Nat) (v : Word) : WrOut :=
  if off = 0x844 then yes (c.clearDelta v)
  else match blk off 0x880 0x10 16 with
    | some (l, 0) => c.writeDlLayer l v
    | some (l, 4) => c.writeDlThr l v
    | _ => yes c

/-! ## Stands (chapter 10) -/

/-- STAND_CTL (R228, R256). -/
def Core.writeStandCtl (c : Core) (v : Word) : WrOut :=
  let s := c.f.st
  let mode := bitOf v 12
  let valid : BitVec 4 := fld v 14 4
  if mode ≠ s.mode ∧ [1, 2, 3].any c.enabled then no (c.standErr 1 0)
  else if c.enabled 1 && s.mode && s.valid s.curCtx.toNat && !bitOf valid s.curCtx.toNat then no (c.standErr 3 s.curCtx.toNat)
  else yes (c.modSt fun y => { y with
    id := fld v 0 12, mode := mode, run := bitOf v 13, ctxValid := valid, stalled := y.stalled && !bitOf v 25 })

/-- CTXSW_REQ (R243, R256). -/
def Core.writeCtxswReq (c : Core) (v : Word) : WrOut :=
  let ctx : BitVec 2 := fld v 0 2
  let disp : BitVec 2 := fld v 2 2
  if c.f.st.swPend then no (c.standErr 8 ctx.toNat)
  else if c.f.st.badSwitch ctx disp then no (c.standErr 9 ctx.toNat)
  else yes (c.modSt fun y => { y with swPend := true, swCtx := ctx, swDisp := disp })

/-- TQ_CTL (R238, R256). -/
def Core.writeTqCtl (c : Core) (w q : Nat) (v : Word) : WrOut :=
  let x := c.tq q
  let y := { x with extUnits := fld v 0 5, extBase := fld v 8 7, en := bitOf v 15 }
  if x.en && y.en then
    if x.extUnits = y.extUnits ∧ x.extBase = y.extBase then yes c else no (c.standErr 4 q)
  else if y.en then
    if 2 ^ 17 < 1024 * y.extBase.toNat + 1024 * y.extUnits.toNat then no (c.standErr 6 q)
    else yes (c.setTq q y)
  else
    let c1 := if x.en then c.emptyQueue w q else c
    yes (c1.setTq q { c1.tq q with extUnits := y.extUnits, extBase := y.extBase, en := false })

/-- TPORT_CTL (R237, R256). -/
def Core.writeTportCtl (c : Core) (x : CfgEnv) (p : Nat) (v : Word) : WrOut :=
  let o := c.tport p
  let y := { o with limit := fld v 0 10, en := bitOf v 10, errCleared := o.errCleared && !bitOf v 11, credOvf := o.credOvf && !bitOf v 12 }
  if o.en && y.en then
    if o.limit = y.limit then yes (c.setTport p y) else no (c.standErr 4 p)
  else if !y.en then yes (c.setTport p y)
  else if y.limit = 0 ∨ 512 < y.limit.toNat then no (c.standErr 5 p)
  else if !coreOk o.tgt.toNat || !x.routeOk o.tgt.toNat (c.orderTo o.tgt.toNat) then no (c.standErr 10 p)
  else yes (c.setTport p { y with bal := y.limit })

/-- A word of the context store (R230). -/
def Core.writeStore (c : Core) (i : Nat) (v : Word) : WrOut :=
  if c.f.st.valid (i / 128) then no (c.standErr 2 (i / 128))
  else yes (c.modSt fun s => { s with store := sset 0 s.store i v, storeBad := sset false s.storeBad (i / 2) false })

/-- Reads of 0x0C00 to 0x0D9F and of the context store. -/
def Core.rdStand (c : Core) (x : CfgEnv) (off : Nat) : RdOut :=
  let s := c.f.st
  match off with
  | 0xC00 => (s.ctl, c)
  | 0xC04 => (s.cfgErr.setWidth 32, c.standErr 0 0)
  | 0xC08 => (s.stallLog.setWidth 32, c)
  | 0xC0C => (c.t.stallCnt, c)
  | 0xC14 => (pack [(s.doneCode.toNat, 0), (b2n s.doneValid, 8)], c)
  | _ =>
    match blk off 0xC40 0x20 4 with
    | some (i, o) =>
      let q := c.tq i
      match o with
      | 0x0 => (q.src.setWidth 32, c)
      | 0x4 => (pack [(q.extUnits.toNat, 0), (q.extBase.toNat, 8), (b2n q.en, 15)], c)
      | 0x8 => (q.occ, c.setTq i { q with hwm := BitVec.ofNat 10 q.total })
      | 0xC => (pack [(q.ctxOcc 0, 0), (q.ctxOcc 1, 16)], c)
      | 0x10 => (pack [(q.ctxOcc 2, 0), (q.ctxOcc 3, 16)], c)
      | _ => (0, c)
    | none =>
      match blk off 0xCC0 0x10 8 with
      | some (i, o) =>
        let p := c.tport i
        (match o with
         | 0 => pack [(p.tgt.toNat, 0), (p.queue.toNat, 18), (p.ep.toNat, 20)]
         | 4 => pack [(p.limit.toNat, 0), (b2n p.en, 10), (b2n p.errCleared, 11), (b2n p.credOvf, 12)]
         | 8 => p.bal.setWidth 32
         | _ => 0, c)
      | none =>
        match blk off 0xD40 8 11 with
        | some (i, o) => c.rdCount x off (sget 0 c.t.cnt (cntStand i)) (o == 4)
        | none =>
          match blk off 0x1000 4 512 with
          | some (i, _) => (sget 0 s.store i, c)
          | none => (0, c)

/-- Writes of 0x0C00 to 0x0D9F and of the context store. -/
def Core.wrStand (c : Core) (x : CfgEnv) (off : Nat) (v : Word) : WrOut :=
  match off with
  | 0xC00 => c.writeStandCtl v
  | 0xC08 =>
    if fldN v 0 5 < 10 ∨ 30 < fldN v 0 5 then no (c.standErr 7 0) else yes (c.modSt fun s => { s with stallLog := fld v 0 5 })
  | 0xC10 => c.writeCtxswReq v
  | _ =>
    match blk off 0xC40 0x20 4 with
    | some (i, 0) =>
      if (c.tq i).en ∧ (c.tq i).src ≠ fld v 0 18 then no (c.standErr 4 i) else yes (c.setTq i { c.tq i with src := fld v 0 18 })
    | some (i, 4) => c.writeTqCtl x.e.w i v
    | some _ => yes c
    | none =>
      match blk off 0xCC0 0x10 8 with
      | some (i, 0) =>
        let p := c.tport i
        let y := { p with tgt := fld v 0 18, queue := fld v 18 2, ep := fld v 20 5 }
        if p.en ∧ y ≠ p then no (c.standErr 4 i) else yes (c.setTport i y)
      | some (i, 4) => c.writeTportCtl x i v
      | some _ => yes c
      | none =>
        match blk off 0x1000 4 512 with
        | some (i, _) => c.writeStore i v
        | none => yes c

/-! ## Channels and counters (chapter 11) -/

/-- A refused write of a channel register (R282). -/
def Core.chErr (c : Core) (code index side : Nat) : Core :=
  { c with f := { c.f with ch := { c.f.ch with cfgErr := BitVec.ofNat 11 (code + 16 * index + 1024 * side) } } }

/-- The first reason an outbound half may not be enabled (R258, R282, R379): its CH_CFG_ERR code. -/
def Core.outCode (c : Core) (x : CfgEnv) (i : Nat) : Option Nat :=
  let o := c.chOut i
  if o.ext then
    let badTgt := !decide (fldN o.tgt 11 7 = 0)
    let badEp := decide (16 ≤ o.tgtEp.toNat) && !x.frameOpen (fldN o.tgt 0 3) (fldN o.tgt 3 8) (o.tgtEp.toNat - 16)
    if badTgt || badEp then some 6 else none
  else if 1 < o.order.toNat ∨ !coreOk o.tgt.toNat then some 6
  else if (List.range 32).any fun k =>
      let p := c.chOut k
      decide (k ≠ i) && p.en && !p.ext && decide (p.tgt = o.tgt ∧ p.order ≠ o.order) then some 2
  else if !x.routeOk o.tgt.toNat (decide (o.order = 1)) then some 7
  else none

/-- CH_OUT_CTL (R270, R282). -/
def Core.writeChOutCtl (c : Core) (x : CfgEnv) (i : Nat) (v : Word) : WrOut :=
  let o := c.chOut i
  let y := { o with en := bitOf v 0, errRej := o.errRej && !bitOf v 1, errClr := o.errClr && !bitOf v 2, errUn := o.errUn && !bitOf v 3 }
  if y.en && !o.en then
    match c.outCode x i with
    | some k => no (c.chErr k i 0)
    | none => yes (c.setOut i { y with seqNext := 0, recovery := false, tag := o.tag + 1 })
  else if o.en && !y.en then
    let c1 := c.setOut i { y with recovery := false }
    yes (c1.setPool (c1.f.ch.pool.filter fun m => m.dbg || !decide (m.ep.toNat = i)))
  else yes (c.setOut i y)

/-- CH_IN_CTL (R270, R282). -/
def Core.writeChInCtl (c : Core) (i : Nat) (v : Word) : WrOut :=
  let h := c.chIn i
  let y := { h with en := bitOf v 0, sigEn := bitOf v 1, sigCntr := fld v 2 6, qbase := fld v 8 8 }
  if h.en && y.en then
    if y = h then yes c else no (c.chErr 1 i 1)
  else if !y.en then yes (c.setIn i { y with q := [], gap := false, resumeSent := false, resumeDue := false })
  else
    let a := 512 * y.qbase.toNat
    let ring := (List.range 32).any fun k =>
      decide (k ≠ i) && (c.chIn k).en && overlap a 512 (512 * (c.chIn k).qbase.toNat) 512
    let win := (List.range 16).any fun k =>
      (c.iwin k).en && overlap a 512 (256 * (c.iwin k).base.toNat) (256 * (c.iwin k).len.toNat)
    if ring || win then no (c.chErr 3 i 1)
    else yes (c.setIn i { y with seqExp := 0, gap := false, resumeSent := false, resumeDue := false, q := [], head := 0 })

/-- K_ADD (R272, R282). -/
def Core.writeKAdd (c : Core) (v : Word) : WrOut :=
  let k := fldN v 0 6
  let n := fldN v 6 26
  if n = 0 then no (c.chErr 5 k 0) else yes (c.raiseK k n 4 0 0 0)

/-- The threads that wait on counter Kk (R277). -/
def Core.waiters (c : Core) (x : CfgEnv) (k : Nat) : Nat :=
  ([0, 1, 2, 3].map fun t =>
    let d := c.cand x.e t
    match d.op with
    | some (_, .cwait cr ga _ _) =>
      if d.state = 10 ∧ ((c.th t).rc cr).ubase + ((c.th t).rg ga).toNat = k then 2 ^ t else 0
    | _ => 0).foldl (· + ·) 0

/-- Reads of 0x0E00 to 0x0EFF and 0x1800 to 0x1FFF. -/
def Core.rdChan (c : Core) (x : CfgEnv) (off : Nat) : RdOut :=
  let h := c.f.ch
  match off with
  | 0xE00 => (h.cfgErr.setWidth 32, c.chErr 0 0 0)
  | 0xE04 => (pack [(h.qwLog.toNat, 0), (b2n h.qwEn, 5), (h.stateMask.toNat, 16)], c)
  | 0xE08 => (c.t.qwCnt, c)
  | 0xE0C => (BitVec.ofNat 32 (16 - h.pool.length), c)
  | _ =>
    match blk off 0xE40 8 10 with
    | some (i, o) => c.rdCount x off (sget 0 c.t.cnt (cntChan i)) (o == 4)
    | none =>
      match blk off 0x1800 0x10 64 with
      | some (k, o) =>
        let y := c.k k
        match o with
        | 0 => c.rdCount x off y.val false
        | 4 => c.rdCount x off y.val true
        | 8 => (pack [(c.waiters x k, 0), (y.kind.toNat, 4), (y.thread.toNat, 7), (y.ep.toNat, 9)], c)
        | _ => (y.core.setWidth 32, c)
      | none =>
        match blk off 0x1C00 0x20 32 with
        | some (i, o) =>
          let p := c.chOut i
          let q := c.chIn i
          (match o with
           | 0x0 => pack [(p.tgt.toNat, 0), (p.tgtEp.toNat, 18), (p.order.toNat, 23), (b2n p.ext, 25)]
           | 0x4 => pack [(b2n p.en, 0), (b2n p.errRej, 1), (b2n p.errClr, 2), (b2n p.errUn, 3)]
           | 0x8 => c.outStat i
           | 0xC => pack [(q.src.toNat, 0), (q.srcEp.toNat, 18)]
           | 0x10 => pack [(b2n q.en, 0), (b2n q.sigEn, 1), (q.sigCntr.toNat, 2), (q.qbase.toNat, 8)]
           | 0x14 => c.inStat i
           | _ => 0, c)
        | none => (0, c)

/-- QW_CFG (R282). -/
def Core.writeQwCfg (c : Core) (v : Word) : WrOut :=
  let mask : BitVec 16 := fld v 16 16
  if fldN v 0 5 < 10 ∨ 30 < fldN v 0 5 ∨ mask &&& ~~~0x0F18 ≠ 0 then no (c.chErr 4 0 0)
  else yes { c with f := { c.f with ch := { c.f.ch with qwLog := fld v 0 5, qwEn := bitOf v 5, stateMask := mask } } }

/-- Writes of 0x0E00 to 0x0EFF and 0x1800 to 0x1FFF. -/
def Core.wrChan (c : Core) (x : CfgEnv) (off : Nat) (v : Word) : WrOut :=
  match off with
  | 0xE04 => c.writeQwCfg v
  | 0xE10 => c.writeKAdd v
  | _ =>
    match blk off 0x1C00 0x20 32 with
    | some (i, 0x0) =>
      let o := c.chOut i
      let y := { o with tgt := fld v 0 18, tgtEp := fld v 18 5, order := fld v 23 2, ext := bitOf v 25 }
      if o.en then
        if y = o then yes c else no (c.chErr 1 i 0)
      else if !y.ext && (decide (1 < y.order.toNat) || !coreOk y.tgt.toNat) then no (c.chErr 6 i 0)
      else yes (c.setOut i y)
    | some (i, 0x4) => c.writeChOutCtl x i v
    | some (i, 0xC) =>
      let h := c.chIn i
      let y := { h with src := fld v 0 18, srcEp := fld v 18 5 }
      if h.en ∧ y ≠ h then no (c.chErr 1 i 1) else yes (c.setIn i y)
    | some (i, 0x10) => c.writeChInCtl i v
    | _ => yes c

/-! ## Crossings, streams, power (chapters 12, 13, 17) -/

/-- Flits of a virtual channel in a queue. -/
def vcCount (q : List Flit) (vc : Nat) : Nat := (q.filter fun f => decide (f.pkt.vc.toNat = vc)).length

/-- ATT_STAT (Table 12.2). -/
def Core.attStat (c : Core) (w : Nat) : Word :=
  match attachment w 0 with
  | none => 0
  | some n =>
    let (kind, idx) := match n with
      | .mem m => (0, m)
      | .cxl => (1, 0)
      | .eth e => (2, e)
      | _ => (0, 0)
    pack [(1, 0), (kind, 1), (idx, 3), ((sget [] c.t.router.attIn 0).length, 9), ((sget [] c.t.router.attIn 1).length, 16), (b2n (attachment w 1).isSome, 23)]

/-- Reads of 0x0F00 to 0x0FFF. -/
def Core.rdXq (c : Core) (x : CfgEnv) (off : Nat) : RdOut :=
  let r := c.t.router
  if off = 0xF10 then (c.attStat x.e.w, c)
  else match blk off 0xF00 4 4 with
    | some (s, _) =>
      if !isSeam x.e.w s then (0, c)
      else
        let q := sget [] r.xq s
        let r' := { r with xhwm := sset 0 r.xhwm s (BitVec.ofNat 5 q.length), xfull := sset 0 r.xfull s 0 }
        (pack [(vcCount q 0, 0), (vcCount q 1, 3), (vcCount q 2, 6), (vcCount q 3, 8), ((sget 0 r.xhwm s).toNat, 10), (1, 15),
          ((sget 0 r.xfull s).toNat, 16)], { c with t := { c.t with router := r' } })
    | none =>
      match blk off 0xF40 0x10 4 with
      | some (s, o) => (if o < 0xC then (c.str s).reg (o / 4) else 0, c)
      | none =>
        match blk off 0xF80 8 4 with
        | some (i, o) => c.rdCount x off (sget 0 c.t.cnt (cntStr i)) (o == 4)
        | none => (0, c)

/-- Writes of 0x0F00 to 0x0FFF: STR_CTL (Table 13.6). -/
def Core.wrXq (c : Core) (off : Nat) (v : Word) : WrOut :=
  match blk off 0xF40 0x10 4 with
  | some (s, 0xC) =>
    let c1 := if bitOf v 0 then c.setStr s (c.str s).resume else c
    yes (if bitOf v 1 then c1.abortStream s else c1)
  | _ => yes c

/-- EXT_EVT_CTL written (Table 17.6). -/
def Core.writeExtEvt (c : Core) (v : Word) : WrOut := yes { c with f := { c.f with dvfsEn := bitOf v 0 } }

/-! ## Debug (chapter 21) -/

/-- A refused debug write (R497). -/
def Core.dbgErrSet (c : Core) (code t : Nat) : Core := { c with t := { c.t with dbgErr := BitVec.ofNat 6 (code + 16 * t) } }

/-- The first thread whose bit is set in a mask. -/
def firstOf (m : BitVec 4) : Option Nat := [0, 1, 2, 3].find? fun t => bitOf m t

/-- RESUME and STEP of one thread (R484, R485). -/
def Core.resumeThread (c : Core) (t : Nat) (step : Bool) : Core :=
  if !(c.th t).isStopped then c
  else if step then c.modTh t fun th => { th with stepping := true, skipBp := true }
  else c.modTh t fun th => { th with stop := 0, stepping := false, skipBp := true }

/-- DBG_CTL (R482 to R485). -/
def Core.writeDbgCtl (c : Core) (v : Word) : WrOut :=
  let stop : BitVec 4 := fld v 0 4
  let stp : BitVec 4 := fld v 4 4
  let res : BitVec 4 := fld v 8 4
  match firstOf ((stop &&& stp) ||| (stop &&& res) ||| (stp &&& res)) with
  | some t => no (c.dbgErrSet 1 t)
  | none =>
    if res ≠ 0 ∧ c.f.exc.l2double then no (c.dbgErrSet 2 ((firstOf res).getD 0))
    else match [0, 1, 2, 3].find? fun t => bitOf stp t && !(c.th t).isStopped with
      | some t => no (c.dbgErrSet 3 t)
      | none =>
        yes ([0, 1, 2, 3].foldl (fun (c : Core) t =>
          if bitOf stop t then
            if c.enabled t ∧ !(c.th t).isStopped then c.stopThread t 1 0 (bitOf v 12) 0 else c
          else if bitOf stp t then c.resumeThread t true
          else if bitOf res t then c.resumeThread t false
          else c) c)

/-- DBG_STAT: REASON_t and MERGED (Table 21.1). -/
def Core.dbgStat (c : Core) : Word :=
  let reason := fun (t : Nat) => if c.f.exc.l2double && c.enabled t then 5 else if (c.th t).isStopped then (c.th t).stop.toNat else 0
  pack [(reason 0, 0), (reason 1, 4), (reason 2, 8), (reason 3, 12), (c.f.dbg.merged.toNat, 16)]

/-- The core with f applied to its debug registers. -/
def Core.modDbg (c : Core) (f : Debug → Debug) : Core := { c with f := { c.f with dbg := f c.f.dbg } }

/-- DBG_CFG (R497). -/
def Core.writeDbgCfg (c : Core) (v : Word) : WrOut :=
  let m : BitVec 16 := fld v 16 16
  if m &&& ~~~0x0FFC ≠ 0 then no (c.dbgErrSet 6 0)
  else yes { c with t := { c.t with ringEn := bitOf v 0, waitMask := m } }

/-- DBG_REPLY (R481, R497). -/
def Core.writeDbgReply (c : Core) (v : Word) : WrOut :=
  yes (c.modDbg fun d => { d with
    replyBase := fld v 6 11, replyCntr := fld v 17 6, replyEn := bitOf v 23,
    replyN := if bitOf v 23 && !d.replyEn then 0 else d.replyN })

/-- TRACE_CTL (R495). -/
def Core.writeTraceCtl (c : Core) (v : Word) : WrOut :=
  let mode : BitVec 2 := fld v 0 2
  if mode = 3 ∨ (c.f.dbg.traceMode ≠ 0 ∧ mode ≠ 0) then no (c.dbgErrSet 7 0)
  else
    let c1 := c.modDbg fun d => { d with traceMode := mode, traceThr := fld v 2 4, traceWrap := bitOf v 6, traceStop := bitOf v 7 }
    if c.f.dbg.traceMode = 0 ∧ mode ≠ 0 then
      yes { c1.modDbg (fun d => { d with trace := [] }) with
        t := { c1.t with traceCnt := 0, traceNext := 0, traceFull := false, traceFrozen := false } }
    else yes c1

/-- Whether a watchpoint's values are refused (R497). -/
def wpBad (base ctl : Word) : Bool :=
  bitOf ctl 21 && (decide (fldN ctl 0 15 = 0) || decide (2 ^ 17 < base.toNat + 8 * fldN ctl 0 15))

/-- Breakpoint and watchpoint registers at 0x2020 to 0x203F (R497). -/
def Core.writeBpWp (c : Core) (off : Nat) (v : Word) : WrOut :=
  match blk off 0x2020 4 4 with
  | some (k, _) =>
    if fldN v 0 2 ≠ 0 then no (c.dbgErrSet 5 0) else yes (c.modDbg fun d => { d with bp := sset 0 d.bp k (v &&& 0x03FFFFFF) })
  | none =>
    match blk off 0x2030 8 2 with
    | some (j, o) =>
      let base := if o = 0 then v &&& 0x1FFF8 else sget 0 c.f.dbg.wpBase j
      let ctl := if o = 0 then sget 0 c.f.dbg.wpCtl j else v &&& 0x7FFFFF
      if wpBad base ctl then no (c.dbgErrSet 5 0)
      else yes (c.modDbg fun d => { d with wpBase := sset 0 d.wpBase j base, wpCtl := sset 0 d.wpCtl j ctl })
    | none => yes c

/-- Whether the windows of thread t are accessible (R488). -/
def Core.windowOpen (c : Core) (t : Nat) : Bool := (c.th t).isStopped || (c.f.exc.l2double && c.enabled t)

/-- A word of thread window t (Table 21.3). The manual gives STEP 18 bits and does not say what reads above them: the model reads the sign
there (DESIGN CHOICE, log 34). -/
def Core.readWindow (c : Core) (t o : Nat) : Word :=
  let th := c.th t
  if o < 0x80 then th.rg (BitVec.ofNat 5 (o / 4))
  else if o < 0x880 then lane 32 (th.rv (BitVec.ofNat 5 ((o - 0x80) / 64))) ((o - 0x80) % 64 / 4)
  else if o < 0xA80 then
    let x := th.rc (BitVec.ofNat 4 ((o - 0x880) / 32))
    let i := (o - 0x880) % 32
    if i < 16 then x.word (i / 4) else if i = 16 then BitVec.ofNat 32 (b2n x.tag) else 0
  else if o = 0xA80 then th.pc.setWidth 32
  else if o = 0xA84 then th.flags.setWidth 32
  else if o = 0xA88 then th.prog.word
  else if o = 0xA8C then (if t = 0 then c.f.exc.level.setWidth 32 else 0)
  else match blk o 0xAA0 0x20 4 with
    | some (k, f) =>
      let a := th.rag (BitVec.ofNat 2 k)
      if f / 4 = 0 then a.getField 0 ||| BitVec.ofNat 32 ((a.cap.getD 0).toNat % 8 * 2 ^ 18)
      else if f / 4 < 5 then a.getField (BitVec.ofNat 3 (f / 4)) else 0
    | none => if 0xB20 ≤ o ∧ o < 0xB60 then lane 32 th.stag ((o - 0xB20) / 4) else 0

/-- The bits of a word that AG field f holds (Table 03.5); the others are read-only or reserved (R7, R8, Table 21.3). -/
def agBits (f : Nat) (v : Word) : Word :=
  match f with
  | 0 => v &&& 0x1FFFF
  | 1 => v &&& 0x1FFFF
  | 2 => (fld v 0 18 : BitVec 18).signExtend 32
  | 3 => v &&& 0x3FFFF
  | _ => v &&& 3

/-- A word of thread window t written (R488). -/
def Core.writeWindow (c : Core) (t o : Nat) (v : Word) : Core :=
  c.modTh t fun th =>
    if o < 0x80 then th.wg (BitVec.ofNat 5 (o / 4)) v
    else if o < 0x880 then
      let i := BitVec.ofNat 5 ((o - 0x80) / 64)
      th.wv i (setLane 32 (th.rv i) ((o - 0x80) % 64 / 4) v)
    else if o < 0xA80 then
      let i := BitVec.ofNat 4 ((o - 0x880) / 32)
      let x := th.rc i
      let k := (o - 0x880) % 32
      if k < 16 then th.wc i (x.setWord (k / 4) v) else if k = 16 ∧ !bitOf v 0 then th.wc i { x with tag := false } else th
    else if o = 0xA80 then { th with pc := pcOfWord v, fbuf := [], bubble := 2 }
    else if o = 0xA84 then { th with flags := fld v 0 4 }
    else if o = 0xA88 then { th with prog := { th.prog with progress := fld v 0 16, valid := bitOf v 31 } }
    else match blk o 0xAA0 0x20 4 with
      | some (k, f) =>
        let i := BitVec.ofNat 2 k
        match (th.rag i).setField (BitVec.ofNat 3 (f / 4)) (agBits (f / 4) v) with
        | some a => if f / 4 < 5 then th.wag i a else th
        | none => th
      | none => if 0xB20 ≤ o ∧ o < 0xB60 then { th with stag := setLane 32 th.stag ((o - 0xB20) / 4) v } else th

/-- Whether the matrix windows are readable (R489). -/
def Core.matrixOpen (c : Core) : Bool :=
  ([0, 1, 2, 3].all fun t => !c.enabled t || c.windowOpen t) && c.f.mx.queue.isEmpty && c.f.mv.isNone

/-- A word of the matrix windows (R489). -/
def Core.readMatrix (c : Core) (off : Nat) : Word :=
  match blk off 0x8000 0x800 8 with
  | some (t, o) =>
    let x := c.tile t
    if o < 0x400 then lane 32 x.data (o / 4) else if o < 0x440 then lane 32 x.side ((o - 0x400) / 4) else 0
  | none =>
    match blk off 0xC000 0x100 4 with
    | some (a, o) => lane 32 (c.acc a).data (o / 4)
    | none => 0

/-- Reads of 0x2000 up; the flag is acceptance. -/
def Core.rdDbg (c : Core) (x : CfgEnv) (off : Nat) : RdOut × Bool :=
  let d := c.f.dbg
  match off with
  | 0x2004 => ((c.dbgStat, c.modDbg fun d => { d with merged := 0 }), true)
  | 0x2008 => ((pack [(b2n c.t.ringEn, 0), (c.t.waitMask.toNat, 16)], c), true)
  | 0x200C => ((c.t.dbgErr.setWidth 32, c.dbgErrSet 0 0), true)
  | 0x2010 => ((pack [(d.replyBase.toNat, 6), (d.replyCntr.toNat, 17), (b2n d.replyEn, 23)], c), true)
  | 0x2014 => ((pack [(d.traceMode.toNat, 0), (d.traceThr.toNat, 2), (b2n d.traceWrap, 6), (b2n d.traceStop, 7)], c), true)
  | 0x2018 => ((pack [(c.t.traceCnt.toNat, 0), (c.t.traceNext.toNat, 9), (b2n c.t.traceFull, 17), (b2n c.t.traceFrozen, 18)], c), true)
  | _ =>
    match blk off 0x2020 4 4 with
    | some (k, _) => ((sget 0 d.bp k, c), true)
    | none =>
      match blk off 0x2030 8 2 with
      | some (j, o) => ((if o = 0 then sget 0 d.wpBase j else sget 0 d.wpCtl j, c), true)
      | none =>
        match blk off 0x2100 8 18 with
        | some (i, o) => (c.rdCount x off (sget 0 c.t.cnt (cntPerf i)) (o == 4), true)
        | none =>
          match blk off 0x2800 8 256 with
          | some (i, o) => ((fld (sget 0 d.trace i) (8 * o) 32, c), true)
          | none =>
            match blk off 0x4000 0x1000 4 with
            | some (t, o) => if c.windowOpen t then ((c.readWindow t o, c), true) else ((0, c.dbgErrSet 4 t), false)
            | none =>
              if 0x8000 ≤ off ∧ off < 0xC400 then
                if c.matrixOpen then ((c.readMatrix off, c), true) else ((0, c.dbgErrSet 4 0), false)
              else ((0, c), true)

/-- Writes of 0x2000 up: a thread's PC with bits [1:0] not zero is refused (R488, R497). -/
def Core.wrDbg (c : Core) (off : Nat) (v : Word) : WrOut :=
  match off with
  | 0x2000 => c.writeDbgCtl v
  | 0x2008 => c.writeDbgCfg v
  | 0x2010 => c.writeDbgReply v
  | 0x2014 => c.writeTraceCtl v
  | _ =>
    if 0x2020 ≤ off ∧ off < 0x2040 then c.writeBpWp off v
    else match blk off 0x4000 0x1000 4 with
      | some (t, o) =>
        if !c.windowOpen t then no (c.dbgErrSet 4 t)
        else if o = 0xA80 ∧ fldN v 0 2 ≠ 0 then no (c.dbgErrSet 5 t)
        else yes (c.writeWindow t o v)
      | none => yes c

/-! ## Reset, and the whole space -/

/-- The core field that a core reset leaves: scratchpad contents and tags kept, everything else at reset (R478). -/
def Field.afterReset (f : Field) : Field :=
  { spad := { mem := f.spad.mem, tags := f.spad.tags, tagBad := f.spad.tagBad, err := f.spad.err }, dmaRange := f.dmaRange }

/-- The registers held in the trunk (R204, R256, R282, R293, R325, R415, R435, R478, R494, R497). -/
def trunkHeld (off : Nat) : Bool :=
  decide (off < 0x10) || (blk off 0x2A0 4 16).isSome || off == 0x540 || off == 0x620 || (blk off 0x780 8 17).isSome
    || off == 0xB80 || off == 0xB84 || off == 0xB88 || off == 0xB90 || off == 0xC0C || (blk off 0xD40 8 11).isSome
    || off == 0xDA0 || off == 0xE08 || (blk off 0xE40 8 10).isSome || (blk off 0xF00 4 16).isSome
    || (blk off 0xF80 8 4).isSome || off == 0x2008 || off == 0x200C || off == 0x2018 || (blk off 0x2100 8 18).isSome

/-- The latched high words that outlive the core field: those of counts held in the trunk (R202, R282). -/
def Trunk.keptLatch (t : Trunk) : Sparse Word := t.latch.filter fun p => trunkHeld (p.1 % 65536)

/-- A core reset (R320, R478). -/
def Core.reset (c : Core) : Core :=
  { c with
    f := c.f.afterReset
    t := { c.t with epoch := c.t.epoch + 1, stallDue := false, qwDue := none, resetMark := false, latch := c.t.keptLatch } }

/-- The core field initialised: what a power-up, a test or RETURN leaves (R103, R130, R147, R201, R320). -/
def Core.initField (c : Core) : Core :=
  { c with
    f := {}
    t := { c.t with epoch := c.t.epoch + 1, stallDue := false, qwDue := none, resetMark := false, latch := c.t.keptLatch, gen := [],
                    idleCnt := 0 } }

/-- CORE_RESET (R478). -/
def Core.writeReset (c : Core) (x : CfgEnv) (v : Word) : WrOut :=
  if !bitOf v 0 then yes c
  else if x.inRun then no { c with t := { c.t with resetErr := 1 } }
  else yes c.reset

/-- A read of the per-core configuration space. -/
def Core.cfgRead (c : Core) (x : CfgEnv) (off : Nat) : RdOut × Bool :=
  if off % 4 ≠ 0 then ((0, c), true)
  else if off = 0x0C then ((c.t.alive, c), true)
  else if off < 0x40 then ((x.ident off, c), true)
  else if off < 0x300 then (c.rdExc x off, true)
  else if off < 0x540 then (c.rdWin off, true)
  else if off < 0x600 then (c.rdMx x off, true)
  else if off < 0x840 then (c.rdSp x off, true)
  else if off < 0xB80 then (c.rdDl off, true)
  else if off = 0xB8C then
    ((pack [(b2n c.f.dvfsEn, 0), (c.f.dvfsMerged.toNat, 8)], { c with f := { c.f with dvfsMerged := 0 } }), true)
  else if off = 0xB90 then ((c.t.lostRsp.setWidth 32, { c with t := { c.t with lostRsp := 0 } }), true)
  else if off < 0xC00 then ((x.ident off, c), true)
  else if off = 0xDC0 then ((x.ident off, c), true)
  else if off = 0xDA0 then ((pack [(c.t.resetErr.toNat, 4)], { c with t := { c.t with resetErr := 0 } }), true)
  else if off < 0xDA0 then (c.rdStand x off, true)
  else if 0xE00 ≤ off ∧ off < 0xF00 then (c.rdChan x off, true)
  else if 0xF00 ≤ off ∧ off < 0x1000 then (c.rdXq x off, true)
  else if 0x1000 ≤ off ∧ off < 0x1800 then (c.rdStand x off, true)
  else if 0x1800 ≤ off ∧ off < 0x2000 then (c.rdChan x off, true)
  else if 0x2000 ≤ off then c.rdDbg x off
  else ((0, c), true)

/-- A write of the per-core configuration space. -/
def Core.cfgWrite (c : Core) (x : CfgEnv) (off : Nat) (v : Word) : WrOut :=
  if off % 4 ≠ 0 then yes c
  else if off < 0x40 then yes c
  else if off < 0x300 then c.wrExc off v
  else if off < 0x540 then c.wrWin x off v
  else if off = 0x540 then c.writeCheckCfg v
  else if off < 0x600 then yes c
  else if off < 0x840 then c.wrSp off v
  else if off < 0xB80 then c.wrDl off v
  else if off = 0xB8C then c.writeExtEvt v
  else if off < 0xC00 then yes c
  else if off = 0xDA0 then c.writeReset x v
  else if off < 0xDA0 then c.wrStand x off v
  else if 0xE00 ≤ off ∧ off < 0xF00 then c.wrChan x off v
  else if 0xF00 ≤ off ∧ off < 0x1000 then c.wrXq off v
  else if 0x1000 ≤ off ∧ off < 0x1800 then c.wrStand x off v
  else if 0x1800 ≤ off ∧ off < 0x2000 then c.wrChan x off v
  else if 0x2000 ≤ off then c.wrDbg off v
  else yes c

end Sys2Proof.Machine
end

