-- ==== Sys2Proof/Machine/State.lean ====
section
/-! DEFINITION. The state of the module (chapters 01, 12 to 22), its faults and refusals, and State.reset. Every field's default is
its value at reset; a register for which the spec gives no reset value holds 0 (log 1). -/
namespace Sys2Proof.Machine

/-! ## Power and the input (chapter 22) -/

/-- The input, the converters and the sideband pins (R504 to R510). -/
structure Input where
  vin : Bool := false                   -- the input has reached the start threshold and has not been removed
  run : Bool := false                   -- converters on
  rails : Bool := false                 -- trunk, retention and stack rails good: PG (R505, R509)
  armed : Bool := true                  -- a rise of the input starts the module (R507)
  trip : Bool := false                  -- a trip or an abandoned start, until re-arm (R509)
  aux : Bool := false                   -- 3V3_AUX present (R510)
  perst : Bool := false                 -- PERST# low (R509)
  deriving DecidableEq, Repr

/-- Board-test and management ports (R498, R499): the instruction in force, the pins sampled, the I3C address and the last
answers. -/
structure BoardTest where
  instr : BitVec 2 := 0                 -- 0 BYPASS, 1 IDCODE, 2 SAMPLE/PRELOAD, 3 EXTEST
  pins : List Bool := []
  idcode : List Byte := []              -- what IDCODE last answered
  i3c : Option (BitVec 7) := none
  answer : List Byte := []              -- what an I3C private read last answered
  deriving DecidableEq, Repr

/-! ## Dies, groves and memory ports -/

/-- A notice on its way to a die's stewards: of a core (R298), of a memory port with an uncorrectable line (R310), or of an engine with
an uncorrectable buffer word (R368). -/
inductive DieNotice where
  | core (w : Nat) (n : Notice)
  | memUe (port line : Nat)
  | bufUe (engine : Nat)
  deriving DecidableEq, Repr

/-- A die (chapters 17, 18, 20). -/
structure Die where
  phase : BitVec 2 := 0                 -- trunk: 0 unpowered, 1 BIST running, 2 passed and reported, 3 failed (R424)
  coord : Option (BitVec 3 × BitVec 3) := none  -- dx and dy as the trunk read them at its power-up (R10)
  cyc : DWord := 0                      -- its die cycles since its trunk powered up (R74, R299)
  stewCyc : DWord := 0                  -- its steward cycles (R299)
  queue : List DieNotice := []          -- notices that wait while its stewards are stopped (R418)
  missing : Bool := false               -- (R466)
  lost : Bool := false                  -- trunk lost (R440)
  stewLost : Bool := false              -- stewards lost (R439)
  updating : Bool := false              -- stewards stopped for an update (R417)
  beat : Bool := false                  -- a heartbeat since the last silence check (R394)
  point : BitVec 2 := 3
  cls : BitVec 2 := 1                   -- class whose thresholds its last sample used (R400)
  held : Bool := false                  -- (R406)
  rest : Nat := 0                       -- sampling intervals before the next step (R399)
  ramp : Option (BitVec 2) := none      -- a step up whose rail is ramping (R399)
  digest : BitVec 384 := 0              -- MR_FW (R449)
  version : Word := 0
  pubKey : List Byte := []              -- confirmed identity public key (R447)
  blockTemp : BitVec 12 := 0            -- external port block sensor (R403)
  deriving DecidableEq, Repr

/-- A grove (chapters 17, 18). -/
structure Grove where
  on : Bool := false                    -- switched on (R398)
  unavail : Bool := false               -- (R18)
  deep : Bool := false
  light : Bool := false
  fence : Bool := false
  gated : Bool := false
  cool : Nat := 0                       -- consecutive cool samples (R405)
  wantStep : Bool := false              -- waits for a power-on step (R398)
  tested : Bool := false                -- a test has completed since the fence (R428)
  selfTest : Bool := false              -- under power-up self-test (R469)
  temp : BitVec 12 := 0
  peak : BitVec 12 := 0
  codes : Sparse (BitVec 5) := []       -- row-repair codes; an unlisted row has code 16 (R15)
  retired : List (Nat × Nat) := []      -- retired positions: row, physical position (R436)
  lfsr : DWord := 0                     -- the pattern generators of its tiles, which all run alike (R419)
  sigs : Sparse DWord := []             -- signature registers, by 18 · row + position: a tile's core field, at 17 the row's own (R419, R420)
  trunkSigs : Sparse DWord := []        -- trunk signature registers of its tiles (R420)
  deriving DecidableEq, Repr

/-- A request held by a port controller (R304 to R306): who asks, its number there, its session, the port offset and length, the
data of a write, and, once placed in block order, its result. -/
structure PReq where
  src : Node
  id : Nat
  kind : BitVec 2                       -- 0 stream read, 1 stream write, 2 port or engine read, 3 port or engine write
  stream : Nat
  epoch : Nat
  session : Nat
  addr : Nat                            -- device address
  off : Nat
  len : Nat
  data : List Byte
  placed : Option (BitVec 4 × List Byte) := none   -- fault reason and data read
  deriving DecidableEq, Repr

/-- A memory port controller with its quadrant (R301, R303 to R311, R330). -/
structure Port where
  train : BitVec 3 := 0                 -- 0 not trained, 1 zeroing, 2 ready, 3 training failed
  lost : Bool := false                  -- lost in service (R303, R440)
  cut : Bool := false                   -- its mesh path is lost (R287)
  hold : BitVec 8 := 32
  mergeEn : Bool := true
  merge : List Nat := []                -- live merge blocks (R308)
  reqs : List PReq := []                -- requests held, in order of arrival
  hostq : List PReq := []               -- host-window requests that wait while it holds 1,024 (R304)
  direct : List Packet := []            -- requests of the engines beside the port (R357)
  filter : List Nat := []               -- lines the host may hold (R330)
  snoop : List Nat := []                -- lines whose back-invalidate the host has not answered
  wanted : List Nat := []               -- host-held lines that an access outside reqs waits for (R330)
  err : Sparse (BitVec 2) := []         -- error marks of 64-byte lines: 1 correctable, 2 uncorrectable (R310)
  errAddr : Word := 0
  scrub : Nat := 0                      -- next line of the patrol
  cnt : Sparse DWord := []
  latch : Sparse Word := []             -- latched high words (R202)
  deriving DecidableEq, Repr

/-! ## DMA (chapter 15) -/

/-- An admitted command (R337, R338). -/
structure Cmd where
  pair : Nat
  entry : List Byte
  deriving DecidableEq, Repr

/-- A DMA request not answered: its number, side (0 source or A, 1 side B, 2 a write), offset in the transfer and length. -/
structure DReq where
  id : Nat
  side : Nat
  off : Nat
  len : Nat
  deriving DecidableEq, Repr

/-- An error of an engine buffer word that holds landed bytes of a transfer (R368): the side, the word's number among the transfer's
8-byte words, and whether it cannot be corrected. -/
structure BufErr where
  side : Nat
  word : Nat
  ue : Bool
  deriving DecidableEq, Repr

/-- A transfer of an engine (R361 to R368). -/
structure Xfer where
  slot : Nat
  cmd : Cmd
  rdA : Nat := 0                        -- next offset read, source or side A
  rdB : Nat := 0                        -- next offset read, side B
  reqs : List DReq := []
  bufA : List (Nat × List Byte) := []   -- landed pieces not consumed: offset, bytes
  bufB : List (Nat × List Byte) := []
  marks : List BufErr := []             -- errors of the buffer words that hold the pieces (R368)
  wr : Nat := 0                         -- next offset written, or compared
  fault : Option (Nat × Nat) := none    -- REASON and offset (R368)
  diff : Option (Nat × Byte × Byte) := none  -- first difference (R366)
  tracked : Bool := false               -- holds its tracked ranges (R364)
  dropped : Bool := false               -- its command has completed with ABORTED (R395)
  deriving DecidableEq, Repr

/-- A DMA engine (Table 15.6). -/
structure Engine where
  xfers : List Xfer := []
  nextId : Nat := 0
  rdTurn : Nat := 0
  wrTurn : Nat := 0
  lastReason : BitVec 8 := 0
  bufCe : BitVec 16 := 0
  bufUe : BitVec 16 := 0
  replies : List Packet := []           -- replies that have reached the engine
  cnt : Sparse DWord := []
  latch : Sparse Word := []
  deriving DecidableEq, Repr

/-! ## Host interface (chapter 14) -/

/-- A record before it is written (Table 14.3): its length in entries and bytes 8 onward. -/
structure Rec where
  type : Nat
  tag : Nat := 0
  status : Nat := 0
  len : Nat := 1
  body : List Byte := []
  deriving DecidableEq, Repr

/-- A record ring (R340 to R346). -/
structure Ring where
  base : DWord := 0
  log : BitVec 5 := 0
  en : Bool := false
  irqEn : Bool := false
  vector : BitVec 6 := 0
  irqCount : BitVec 8 := 1
  tail : Nat := 0
  phase : Bool := true
  head : Nat := 0
  used : Nat := 0                       -- entries written and not consumed
  since : Nat := 0                      -- records since the last message (R346)
  refused : BitVec 16 := 0
  wait : List Rec := []                 -- records produced and not written
  deriving DecidableEq, Repr

/-- A pair: submission ring, completion ring, and the fetched and admitted commands (R335 to R338). -/
structure Pair where
  base : DWord := 0
  log : BitVec 5 := 0
  en : Bool := false
  head : Nat := 0
  tail : Nat := 0
  cq : Ring := {}
  fetched : List Cmd := []              -- fetched, not yet admitted
  admitted : List Cmd := []             -- admitted, not yet started by their own step
  inflight : Nat := 0
  deriving DecidableEq, Repr

/-- An event in the backlog (R344, R354): a record, or a stall event with its cursor over the stand's cores. -/
inductive Event where
  | record (r : Rec)
  | stall (stand first : Nat) (cores : List Nat) (next : Option Nat)
  deriving DecidableEq, Repr

/-- A loaded stand (R227, R253, R352). -/
structure StandRec where
  loaded : Bool := false
  a : Nat := 0
  b : Nat := 0
  pair : Nat := 0
  run : Bool := false                   -- a run is in progress: started and not completed
  tag : Nat := 0                        -- TAG of the START, 0 when a core started it
  session : Nat := 0
  stallPosted : Bool := false           -- a STAND_STALL event is out, and software has not cleared every STALLED since (R247)
  deriving DecidableEq, Repr

/-- The CXL port (R326 to R332, R346). -/
structure Cxl where
  link : Bool := false
  memActive : Bool := false
  hdm : Option (Nat × Nat) := none      -- base and size of the committed decoder
  cut : Bool := false                   -- its mesh path is lost (R287)
  direct : List Packet := []            -- host-memory requests at the port, of the mesh and of the host engines beside it (R331, R357)
  mask : Sparse Bool := []              -- MSI-X mask bits of BAR2; an unlisted vector is masked
  msix : Sparse (DWord × Word) := []    -- message address and data of BAR2, by vector
  pba : Sparse Bool := []               -- pending messages
  sent : Sparse Nat := []               -- MSI-X messages sent, by vector
  msg : Option (DWord × Word) := none   -- address and data of the last message sent
  leadFails : Bool := false             -- the lead's next access to host memory meets an error or a timeout (R331)
  doe : List Byte := []                 -- the DOE mailbox's last reply
  data : List Byte := []                -- what the last host-window read returned
  poison : Bool := false
  ideNext : Option (List Byte) := none  -- IDE keys installed, not in force (R462)
  ide : Option (List Byte) := none
  deriving DecidableEq, Repr

/-! ## Network (chapter 16) -/

/-- A receive-ring record (R380, R381): its number, the item, its kind, where it is delivered, its sequence number and state. -/
structure RxRec where
  id : Nat
  entries : Nat
  core : Nat
  ep : BitVec 5
  srcEp : BitVec 5
  data : List Byte
  sig : Option Word
  pktNo : Nat
  item : Nat
  after : Nat                           -- writes numbered below this must be acknowledged first (R382)
  seq : Option (BitVec 8) := none       -- given at its first delivery
  sent : Bool := false
  done : Bool := false                  -- its delivery has ended
  deriving DecidableEq, Repr

/-- A packet sent and not acknowledged (R377): its number, its bytes, and the core messages it carries (R379). -/
structure TxPkt where
  no : Nat
  bytes : List Byte
  msgs : List Packet
  deriving DecidableEq, Repr

/-- An MREAD being answered (R382): its request, the bytes left, and its part being read. -/
structure MRead where
  req : Word
  off : Nat
  left : Nat
  after : Nat
  part : Nat := 0                       -- bytes of the part being read; 0 none
  wait : List (Nat × Nat) := []         -- reads outstanding: number, window offset
  got : List (Nat × List Byte) := []
  bad : Nat := 0                        -- first fault of a read; 0 none
  pktNo : Nat
  item : Nat
  deriving DecidableEq, Repr

/-- A Glade flow (R373 to R382). -/
structure Flow where
  open_ : Bool := false
  closed : Bool := false                -- opened, and closed since (R374, R375)
  peerClosed : Bool := false            -- closed by the peer, a frame stream still bound (R375)
  closeNo : Nat := 0                    -- the peer's CLOSE that no ACK covers yet; 0 none (R375)
  session : Nat := 0
  ipv4 : Bool := false
  udp : Nat := 0
  ringLog : Nat := 0
  ringBase : Nat := 0
  winBase : Nat := 0
  winUnits : Nat := 0
  mac : List Byte := []
  ip : List Byte := []
  txNo : Nat := 1
  ackCnt : Nat := 1
  rxNo : Nat := 0                       -- highest packet number received in order
  peerWin : Nat := 0
  unacked : List TxPkt := []
  ring : List RxRec := []
  tail : Nat := 0
  phase : Bool := true                  -- the phase of its pad records (R341, R381)
  items : List (List Byte) := []        -- items waiting for a packet: MRDATA, ITEM_ERR
  reads : List MRead := []
  pairs : List Nat := []                -- core · 32 + endpoint of the pairs it has delivered to
  deriving DecidableEq, Repr

/-- A frame in flight (R384, R385). -/
structure Frame where
  no : Nat
  slot : Nat
  bytes : Nat := 0
  writes : List Nat := []               -- segment writes not acknowledged
  started : Bool := false
  deriving DecidableEq, Repr

/-- A frame stream (R383 to R389). -/
structure FStream where
  open_ : Bool := false
  flow : Nat := 0
  depth : Nat := 0
  replace : Bool := false
  pipe : Nat := 0
  overrun : Nat := 64
  cq : Nat := 0
  stand : Nat := 0
  base : Nat := 0
  units : Nat := 0
  size : Nat := 0
  core : Nat := 0
  ep : BitVec 5 := 0
  mask : BitVec 16 := 0
  newest : Option Nat := none
  frames : List Frame := []
  run : Nat := 0                        -- consecutive sheds
  since : Nat := 0                      -- pending shed count (R345)
  admitted : Word := 0
  shed : Word := 0
  replaced : Word := 0
  stale : Word := 0
  doneErr : Word := 0
  stopped : Bool := false               -- admission stopped
  ending : Bool := false                -- a FRAME_CLOSE waits for its started frames (R389)
  closing : List Cmd := []              -- the commands that wait for it
  deriving DecidableEq, Repr

/-- A device write of a port block not acknowledged: its number, its flow, the packet and item it came in, packet 0 for a record of the
port's own, and for a frame segment the stream and the frame (R381, R382, R385). -/
structure EWrite where
  id : Nat
  flow : Nat
  pktNo : Nat
  item : Nat
  seg : Option (Nat × Nat) := none
  deriving DecidableEq, Repr

/-- A gap in a core's outbound half at a port: core, endpoint, the number expected, the tag, and whether RESUME has been sent (R269,
R379). -/
structure EGap where
  core : Nat
  ep : BitVec 5
  seq : BitVec 8
  tag : Nat
  resumed : Bool := false
  deriving DecidableEq, Repr

/-- An Ethernet port block (R371 to R390). -/
structure Eth where
  rate : BitVec 2 := 0
  rtoLog : Nat := 0
  link : Bool := false
  cut : Bool := false                   -- its mesh path is lost (R287)
  mac : List Byte := []
  ip6 : List Byte := []
  ip4 : List Byte := []
  flows : Sparse Flow := []
  streams : Sparse FStream := []
  seqs : Sparse (BitVec 8) := []        -- next sequence number of core · 32 + endpoint (R380)
  recov : List Nat := []                -- core · 32 + endpoint in recovery
  nextId : Nat := 0
  msgs : List Packet := []              -- EXT messages and signals taken, not yet in a packet (R379)
  gaps : List EGap := []
  writes : List EWrite := []
  acks : List (Nat × BitVec 4) := []    -- acknowledgements and faults that have reached the port block
  rxOther : DWord := 0
  authFail : DWord := 0
  retx : DWord := 0
  rxRefused : DWord := 0
  itemErr : DWord := 0
  tx : List Byte := []                  -- the last frame payload sent
  deriving DecidableEq, Repr

/-! ## Security (chapter 19) -/

/-- An open session (R452 to R457). -/
structure Session where
  id : Nat
  keys : List Byte                      -- K_MEM, K_IMP, K_EXP, K_CTL, 160 bytes
  root : List Byte                      -- what HKDF extracted from NONCE and Z: the Glade keys expand from it (Table 19.5)
  closing : Bool := false
  seqIn : Nat := 0
  seqOut : Nat := 0
  dbgBase : Nat := 0
  dbgLen : Nat := 0
  relCounts : Bool := false
  relStall : Bool := false
  work : BitVec 384 := 0                -- MR_WORKLOAD
  deriving DecidableEq, Repr

/-- A sealed region (R453). -/
structure Region where
  base : Nat
  len : Nat
  session : Nat
  deriving DecidableEq, Repr

/-! ## The lead -/

/-- A grove test, running when it is first, else waiting (R429): its command, none where the lead asked, and whether RETURN follows a
PASS or REPAIRED verdict (R428). -/
structure TestReq where
  grove : Nat
  cmd : Option Cmd := none
  service : Bool := false
  patterns : Nat := 16384               -- P (R419, R428)
  deriving DecidableEq, Repr

/-- A firmware installation under way (R417, R472). -/
structure FwJob where
  cmd : Cmd
  load : Bool                           -- FW_LOAD rather than FW_UPDATE
  image : List Byte
  left : List Nat
  done : List Nat := []
  failed : List Nat := []
  dropped : Bool := false               -- its command has ended with the lead or the host interface that held it (R395, R477)
  deriving DecidableEq, Repr

/-- The module's management state: BAR0, the lead's queues, power, identity and sessions. -/
structure Lead where
  state : BitVec 3 := 0                 -- MOD_STATUS.STATE
  fwValid : Bool := false
  leadAlt : Bool := false
  closed : Bool := false                -- the wait for die reports has ended (R466)
  gstep : Nat := 0                      -- groves sequenced at power-up (R398)
  selfTest : Bool := false              -- phase 7 under way
  untested : Nat := 0                   -- groves cleared during phase 7 (R474)
  cls : BitVec 2 := 0                   -- COOLING.CLASS declared; 0 none
  clsNow : BitVec 2 := 1                -- class in force at the power controller (R400)
  winBase : DWord := 0
  winSize : BitVec 28 := 0
  setupCode : BitVec 4 := 0
  setupRing : BitVec 7 := 0
  evtLost : Word := 0
  hwinErr : Word := 0
  near : BitVec 64 := 0
  absent : BitVec 64 := 0
  failed : BitVec 64 := 0               -- ports that failed training
  turn : Nat := 0                       -- pair visited next (R336)
  toPost : List Event := []
  backlog : List Event := []
  lostNow : Nat := 0                    -- events discarded since the last EVENTS_LOST
  dbgLog : List Rec := []
  dbgLost : Nat := 0
  dmaWait : List Cmd := []
  tests : List TestReq := []
  returns : List (Nat × Option Cmd × Nat) := []  -- groves that RETURN waits to switch on: grove, command, its DETAIL (R398, R429)
  fw : Option FwJob := none
  holdoff : Nat := 0                    -- windows without a step up (R401)
  watts : Nat := 0                      -- mean input power of the last window
  throttled : BitVec 16 := 0            -- stacks above their throttle threshold (R411)
  stackTemp : Sparse (BitVec 12) := []
  idDone : Bool := false
  mrConfig : BitVec 384 := 0
  sessions : List Session := []
  nextSession : Nat := 1
  eph : Nat := 0                        -- ephemeral key pairs drawn
  regions : List Region := []
  deriving DecidableEq, Repr

/-! ## The module -/

/-- The state of the module. `free` numbers the free values (log 9) and is the model's own; so is `hostMem`, the host's memory as
the module reads and writes it (log 2). -/
structure State where
  cores : Sparse Core := []             -- by logical core word
  dies : Sparse Die := []
  groves : Sparse Grove := []
  ports : Sparse Port := []
  mem : Sparse Byte := []               -- device memory, by port · 2^35 + port offset
  engines : Sparse Engine := []         -- by 2 · die + engine for engines 0 and 1; 50 + (k − 2) for host engine k
  eths : Sparse Eth := []
  pairs : Sparse Pair := []
  events : Ring := {}
  debug : Ring := {}
  stands : Sparse StandRec := []
  cxl : Cxl := {}
  lead : Lead := {}
  input : Input := {}
  bt : BoardTest := {}
  hostMem : Sparse Byte := []
  answers : Sparse (Nat × Word) := []   -- status and value of the last understory access, by requester (R297)
  free : Nat := 0
  pending : List Instr := []
  deriving DecidableEq, Repr

/-- The module before input power is applied: armed, nothing kept (R5, R507); no command waits (log 5). -/
def State.reset : State := {}

/-- The faults. -/
inductive Fault where
  /-- Raised by every command whose operand names a core, die, grove, port, engine, ring, stand or flow that the module does not
  have (R9 to R24). Safe: no such command can reach the module. -/
  | absentTarget
  deriving DecidableEq, Repr

/-- The refusals. -/
inductive Refusal where
  /-- A command whose meaning the model does not give. Safe: the model stops. -/
  | notModelled (mnemonic : String)
  deriving DecidableEq, Repr

end Sys2Proof.Machine
end

