-- ==== Sys2Proof/Machine/Mod.lean ====
section
/-! DEFINITION. The named operations on the module: its parts, grove states, records and events, stand runs, traffic refused at a
router, and configuration accesses (R18, R20, R227, R253, R297, R298, R344, R404, R408, R427). -/
namespace Sys2Proof.Machine

/-- The outcome of a command. -/
abbrev Out := Host.Outcome State Fault Refusal

/-! ## Parts -/

/-- Core w. -/
def State.core (s : State) (w : Nat) : Core := sget {} s.cores w
/-- The state with core w replaced. -/
def State.setCore (s : State) (w : Nat) (c : Core) : State := { s with cores := sset {} s.cores w c }
/-- The state with f applied to core w. -/
def State.modCore (s : State) (w : Nat) (f : Core → Core) : State := s.setCore w (f (s.core w))
/-- Die d. -/
def State.die (s : State) (d : Nat) : Die := sget {} s.dies d
/-- The state with f applied to die d. -/
def State.modDie (s : State) (d : Nat) (f : Die → Die) : State := { s with dies := smod {} s.dies d f }
/-- Grove g. -/
def State.grove (s : State) (g : Nat) : Grove := sget {} s.groves g
/-- The state with f applied to grove g. -/
def State.modGrove (s : State) (g : Nat) (f : Grove → Grove) : State := { s with groves := smod {} s.groves g f }
/-- Memory port m. -/
def State.port (s : State) (m : Nat) : Port := sget {} s.ports m
/-- The state with f applied to memory port m. -/
def State.modPort (s : State) (m : Nat) (f : Port → Port) : State := { s with ports := smod {} s.ports m f }
/-- DMA engine e. -/
def State.engine (s : State) (e : Nat) : Engine := sget {} s.engines e
/-- The state with f applied to DMA engine e. -/
def State.modEngine (s : State) (e : Nat) (f : Engine → Engine) : State := { s with engines := smod {} s.engines e f }
/-- Ethernet port e. -/
def State.eth (s : State) (e : Nat) : Eth := sget {} s.eths e
/-- The state with f applied to Ethernet port e. -/
def State.modEth (s : State) (e : Nat) (f : Eth → Eth) : State := { s with eths := smod {} s.eths e f }
/-- Pair q. -/
def State.pair (s : State) (q : Nat) : Pair := sget {} s.pairs q
/-- The state with f applied to pair q. -/
def State.modPair (s : State) (q : Nat) (f : Pair → Pair) : State := { s with pairs := smod {} s.pairs q f }
/-- Stand n. -/
def State.stand (s : State) (n : Nat) : StandRec := sget {} s.stands n
/-- The state with f applied to stand n. -/
def State.modStand (s : State) (n : Nat) (f : StandRec → StandRec) : State := { s with stands := smod {} s.stands n f }
/-- The state with f applied to the lead's state. -/
def State.modLead (s : State) (f : Lead → Lead) : State := { s with lead := f s.lead }

/-- A command whose operand must name a part that exists. -/
def guard (ok : Bool) (s : State) : Out := if ok then .next s else .fault .absentTarget

/-! ## Dies and groves -/

/-- Whether a die's trunk is up and joined the mesh and the understory (R10, R424, R440, R466). -/
def State.dieUp (s : State) (d : Nat) : Bool :=
  decide ((s.die d).phase = 2) && !(s.die d).missing && !(s.die d).lost

/-- DIE_MAP (R333). -/
def State.dieMap (s : State) : Nat := (List.range 25).foldl (fun m d => m + if s.dieUp d then 2 ^ d else 0) 0

/-- Whether the stewards of a die run (R407, R417, R439). -/
def State.stewards (s : State) (d : Nat) : Bool := s.dieUp d && !(s.die d).stewLost && !(s.die d).updating

/-- The die that holds the lead role (R394, R395). -/
def State.leadDie (s : State) : Nat := if s.lead.leadAlt then 12 else 2

/-- The STATE of a grove (Table 17.3). -/
def Grove.state (g : Grove) : Nat :=
  if g.unavail then 6
  else if g.deep then 4
  else if g.light then 3
  else if g.fence then 5
  else if g.gated then 2
  else if g.on then 1
  else 0

/-- The STATE of the grove that a core lies in. -/
def State.gstate (s : State) (w : Nat) : Nat := (s.grove (groveOf w)).state

/-- Row r's code (R15). -/
def Grove.code (g : Grove) (r : Nat) : BitVec 5 := sget 16 g.codes r

/-- The physical core word of a logical core (R20, R435). -/
def State.physWord (s : State) (w : Nat) : Nat :=
  let code := ((s.grove (groveOf w)).code (rowOf w)).toNat
  if 17 ≤ code then 0xFFFFFFFF
  else localX w / 16 * 17 + physPos code (posOf w) + localY w * 2 ^ 7 + dieOf w * 2 ^ 14

/-- Whether neither a target nor the route to it lies in an unavailable grove (R18). -/
def State.routeOk (s : State) (a b : Nat) (yx : Bool) : Bool :=
  !(s.grove (groveOf b)).unavail && (route a b yx).all fun v => !(s.grove (groveOf v)).unavail

/-- What core w's instructions take from outside the core (R169, R314, R374). -/
def State.env (s : State) (w : Nat) : Env :=
  { w := w
    word := 0
    resumable := decide (s.lead.state = 0 ∨ s.lead.state = 3 ∨ s.lead.state = 4)
    checkFree := (s.core (checkerOf w)).f.mx.check.isNone
    whole := true
    closed := s.eths.flatMap fun p => (p.2.flows.filter fun f => f.2.closed).map fun f => p.1 + 8 * f.1 }

/-! ## Records and events -/

/-- A little-endian field of n bytes. -/
def le (n x : Nat) : List Byte := bytesOfNat n x

/-- A list brought to n bytes: cut, or padded with zeros. -/
def padTo (n : Nat) (bs : List Byte) : List Byte := bs.take n ++ List.replicate (n - bs.length) 0

/-- An event that the lead posts (R344). -/
def State.post (s : State) (r : Rec) : State :=
  s.modLead fun l => { l with toPost := l.toPost ++ [.record { r with body := padTo (16 * r.len - 8) r.body }] }

/-- A record produced for a pair's completion ring (R340). -/
def State.produce (s : State) (q : Nat) (r : Rec) : State :=
  s.modPair q fun p => { p with cq := { p.cq with wait := p.cq.wait ++ [{ r with body := padTo (16 * r.len - 8) r.body }] } }

/-- A 12-bit temperature as a signed 16-bit field (Table 17.5). -/
def temp16 (x : BitVec 12) : Nat := (x.signExtend 16).toNat

/-- A THERMAL_EVENT record (Table 17.5). -/
def State.thermal (s : State) (kind : Nat) (die : Option Nat) (object temp : Nat) : State :=
  let pt := match die with
    | some d => (s.die d).point.toNat
    | none => 0xFF
  s.post { type := 0x20, len := 2,
           body := le 1 kind ++ le 1 (die.getD 0xFF) ++ le 1 pt ++ le 1 s.lead.clsNow.toNat ++ le 4 object ++ le 2 temp ++ le 2 0
                   ++ le 4 s.lead.watts }

/-- An ERROR_REPORT record (Table 18.6). -/
def State.report (s : State) (kind die cause wa wb info o c1 addr : Nat) : State :=
  s.post { type := 0x21, len := 3,
           body := le 1 kind ++ le 1 die ++ le 1 cause ++ le 1 0 ++ le 4 wa ++ le 4 wb ++ le 4 info ++ le 8 o ++ le 8 c1 ++ le 8 addr }

/-- A notice of a port or an engine taken by its die's stewards (R310, R368, R438, Table 18.6). -/
def State.onPartNotice (s : State) : DieNotice → State
  | .core .. => s
  | .memUe m l => s.report 4 (portDie m) 0 m 0 0 0 0 (64 * l)
  | .bufUe e => let (d, k) := (if e < 50 then (e / 2, e % 2) else (2, e - 48)); s.report 5 d 0 (d + 32 * k) 0 0 0 0 0

/-- A notice of a port or an engine of die d: taken at once, or waiting while its stewards are stopped (R310, R418). -/
def State.sendNotice (s : State) (d : Nat) (n : DieNotice) : State :=
  if s.stewards d then s.onPartNotice n else s.modDie d fun x => { x with queue := x.queue ++ [n] }

/-- An ERROR_REPORT that names a core. -/
def State.reportCore (s : State) (kind w cause info o c1 addr : Nat) : State :=
  s.report kind (dieOf w) cause w (s.physWord w) info o c1 addr

/-! ## Stands -/

/-- The corners of a stand's rectangle: least x, greatest x, least y, greatest y. -/
def rectOf (a b : Nat) : Nat × Nat × Nat × Nat :=
  (min (coreX a) (coreX b), max (coreX a) (coreX b), min (coreY a) (coreY b), max (coreY a) (coreY b))

/-- Whether a rectangle holds a core. -/
def inRect (r : Nat × Nat × Nat × Nat) (w : Nat) : Bool :=
  decide (r.1 ≤ coreX w ∧ coreX w ≤ r.2.1 ∧ r.2.2.1 ≤ coreY w ∧ coreY w ≤ r.2.2.2)

/-- The cores of a rectangle, in increasing logical core word. -/
def rectCores (r : Nat × Nat × Nat × Nat) : List Nat :=
  (List.range (r.2.2.2 + 1 - r.2.2.1)).flatMap fun j => (List.range (r.2.1 + 1 - r.1)).map fun i => wordXY (r.1 + i) (r.2.2.1 + j)

/-- Whether two rectangles share a core (R227). -/
def rectsMeet (p q : Nat × Nat × Nat × Nat) : Bool :=
  decide (p.1 ≤ q.2.1 ∧ q.1 ≤ p.2.1 ∧ p.2.2.1 ≤ q.2.2.2 ∧ q.2.2.1 ≤ p.2.2.2)

/-- The rectangle of a stand. -/
def StandRec.rect (r : StandRec) : Nat × Nat × Nat × Nat := rectOf r.a r.b
/-- The cores of a stand. -/
def StandRec.cores (r : StandRec) : List Nat := if r.loaded then rectCores r.rect else []

/-- The numbers of the loaded stands. -/
def State.loadedStands (s : State) : List Nat := (s.stands.filter fun p => p.2.loaded).map (·.1)

/-- The loaded stand whose rectangle holds a core. -/
def State.standOf (s : State) (w : Nat) : Option Nat := s.loadedStands.find? fun n => inRect (s.stand n).rect w

/-- Whether a rectangle holds a core of a grove. -/
def rectInGrove (r : Nat × Nat × Nat × Nat) (g : Nat) : Bool := rectsMeet r (rectOf (coreAt g 0 0) (coreAt g 15 15))

/-! ## Traffic at the router of a core that takes no delivery -/

/-- The fault code of a DMA access refused on its way to a node (Table 15.4): of a core CLEARED or FENCED, of a port PORT_LOST. -/
def dmaRefused (clr : Bool) : Node → BitVec 4
  | .core _ => if clr then 7 else 8
  | .cxl => 6
  | _ => 4

/-- The answer that a refused request gets at its sender; none for a response, which is consumed (R18, R242, R270, R320, R408, R427,
Table 15.4). `clr`: refused with CLEARED rather than UNREACHABLE; `dst`: where it was bound. -/
def refusalOf (clr : Bool) (dst : Node) : Body → Option Body
  | .msg se _ seq tag _ => some (.reject se seq tag (if clr then .cleared else .unreachable))
  | .sig se _ seq tag _ _ => some (.reject se seq tag (if clr then .cleared else .unreachable))
  | .emsg _ se _ seq tag _ => some (.reject se seq tag (if clr then .cleared else .unreachable))
  | .esig _ se _ seq tag _ => some (.reject se seq tag (if clr then .cleared else .unreachable))
  | .rwrite id .. => some (.rwack id 2)
  | .token p .. => some (.tcredit p 1 true)
  | .rreq id st ep .. => some (.rrep id st ep 7 [])
  | .wreq id st ep .. => some (.wack id st ep 7)
  | .dread id .. => some (.drep id (dmaRefused clr dst) [])
  | .dwrite id .. => some (.dack id (dmaRefused clr dst))
  | _ => none

/-- A response that a cleared or fenced core does not take (R408, R409): counted, its stream failed, its remote write noted. Of a reply that
lands in pieces the first one lost counts, and its request with it. -/
def Core.lose (c : Core) (b : Body) : Core :=
  let again : Bool := match b with
    | .rpiece id st ep _ _ _ => (c.reqOf id st ep).isNone
    | _ => false
  if again then c else
  let c1 : Core := { c with t := { c.t with lostRsp := satAdd c.t.lostRsp 1, lostNow := true } }
  match b with
  | .rrep id st ep _ _ => c1.loseReply id st ep
  | .rpiece id st ep _ _ _ => c1.loseReply id st ep
  | .wack id st ep _ => c1.loseReply id st ep
  | .rwack id _ => { c1 with t := { c1.t with lostAcks := c1.t.lostAcks ++ [id] } }
  | _ => c1

/-! ## Power state of a core's grove -/

/-- The words of the identity, power and seal registers of core w (Tables 17.6, 18.5, 19.6). -/
def Grove.rowWord (g : Grove) (r : Nat) : Word :=
  pack [((g.code r).toNat, 0), (b2n (g.retired.any fun p => decide (p.1 = r)), 5)]

/-- The signed value of a 12-bit temperature in 0.25 °C. -/
def tempOf (x : BitVec 12) : Int := x.toInt

/-- The stacks whose sensor a die samples: the stack at its south-east corner (R403; log 13). -/
def dieStacks (d : Nat) : List Nat := if d % 5 ≤ 3 ∧ d / 5 ≤ 3 then [d / 5 * 4 + d % 5] else []

/-- The external port block of a die: 0 to 7 Ethernet, 8 CXL (Table 01.6). -/
def dieBlock (d : Nat) : Option Nat :=
  ([(2, 8), (1, 0), (3, 1), (21, 2), (23, 3), (5, 4), (15, 5), (9, 6), (19, 7)].find? fun p => decide (p.1 = d)).map (·.2)

/-- The die that Ethernet port e sits on. -/
def ethDie (e : Nat) : Nat := match e with
  | 0 => 1 | 1 => 3 | 2 => 21 | 3 => 23 | 4 => 5 | 5 => 15 | 6 => 9 | _ => 19

/-- The sensors of a die: reading, SOURCE, INDEX (Table 17.6). -/
def State.sensors (s : State) (d : Nat) : List (BitVec 12 × Nat × Nat) :=
  ((List.range 30).map fun k => ((s.grove (30 * d + k)).temp, 0, k))
    ++ ((dieStacks d).map fun k => (sget 0 s.lead.stackTemp k, 1, k))
    ++ ((dieBlock d).toList.map fun k => ((s.die d).blockTemp, 2, k))

/-- The hottest of some sensors, the first among equals. -/
def hottest : List (BitVec 12 × Nat × Nat) → BitVec 12 × Nat × Nat
  | [] => (0, 0, 0)
  | [x] => x
  | x :: xs => let y := hottest xs; if tempOf x.1 < tempOf y.1 then y else x

/-- DIE_TEMP (Table 17.6). -/
def State.dieTemp (s : State) (d : Nat) : Word :=
  let h := hottest (s.sensors d)
  pack [(h.1.toNat, 0), (h.2.1, 12), (h.2.2, 14)]

/-- The session of an open session number. -/
def State.session (s : State) (n : Nat) : Option Session := s.lead.sessions.find? fun x => decide (x.id = n)

/-- Whether the policy of the session a core is bound to grants debug over its grove (R457, R458). -/
def State.dbgGrant (s : State) (w : Nat) : Bool :=
  match s.session (s.core w).t.session with
  | none => false
  | some x => decide (x.dbgBase ≤ groveOf w ∧ groveOf w < x.dbgBase + x.dbgLen)

/-- The identity, power and seal registers of core w. -/
def State.ident (s : State) (w : Nat) (off : Nat) : Word :=
  let g := s.grove (groveOf w)
  let d := s.die (dieOf w)
  match off with
  | 0x00 => BitVec.ofNat 32 w
  | 0x04 => BitVec.ofNat 32 (s.physWord w)
  | 0x08 => g.rowWord (rowOf w)
  | 0xB80 => pack [(g.state, 0), (d.point.toNat, 3), (b2n d.held, 5), (d.cls.toNat, 6), (b2n g.fence, 8)]
  | 0xB84 => pack [(g.temp.toNat, 0), (g.peak.toNat, 16)]
  | 0xB88 => s.dieTemp (dieOf w)
  | 0xDC0 => pack [((s.core w).t.session, 0), (b2n (s.dbgGrant w), 16)]
  | _ => 0

/-- Whether a core lies in a loaded stand whose run is in progress (R478). -/
def State.inRun (s : State) (w : Nat) : Bool :=
  match s.standOf w with
  | none => false
  | some n => (s.stand n).run

/-- What a configuration access to core w takes from outside it. -/
def State.cfgEnv (s : State) (w requester : Nat) : CfgEnv :=
  { e := s.env w
    routeOk := fun b yx => s.routeOk w b yx
    frameOpen := fun p fl st =>
      let x := sget {} (s.eth p).streams st
      x.open_ && decide (x.flow = fl)
    ident := s.ident w
    gated := (s.grove (groveOf w)).gated
    inRun := s.inRun w
    requester := requester }

/-- A gated grove woken: its clock runs, the idle counts start again, each core counts the wake (R200, R201). -/
def State.wake (s : State) (g : Nat) : State :=
  if !(s.grove g).gated then s
  else
    let s1 := s.modGrove g fun x => { x with gated := false }
    (groveCores g).foldl (fun s w => s.modCore w fun c =>
      { c.bump (cntSp 14) 1 with t := { (c.bump (cntSp 14) 1).t with idleCnt := 0 } }) s1

/-! ## Stand runs -/

/-- The status that stops an access to core w before it touches a register (Table 12.6); none where it goes on. -/
def State.accessStop (s : State) (w off : Nat) (write : Bool) : Option Nat :=
  let held := trunkHeld off || decide (off = 0xDC0)
  let st := s.gstate w
  if decide (0x2000 ≤ off) && decide ((s.core w).t.session ≠ 0) && !s.dbgGrant w then some 4
  else if st = 6 ∧ (write ∨ !held) then some 3
  else if held then none
  else if st = 5 then some 3
  else if st = 3 ∨ st = 4 ∨ st = 0 then some 2
  else none

/-- A write of a core-field register by a steward, as an understory access: it wakes a gated grove, and changes nothing where the access is
stopped (R200, R297). -/
def State.standWrite (s : State) (w off : Nat) (f : Stand → Stand) : State :=
  if !s.dieUp (dieOf w) || (s.accessStop w off true).isSome then s else (s.wake (groveOf w)).modCore w fun c => c.modSt f

/-- RUN written on every core of a stand (R253). -/
def State.setRun (s : State) (n : Nat) (v : Bool) : State :=
  (s.stand n).cores.foldl (fun s w => s.standWrite w 0xC00 fun x => { x with run := v }) s

/-- The current run of a stand completes, once, with its RUN record (R253, Table 14.7). -/
def State.endRun (s : State) (n status code wa wb : Nat) : State :=
  let r := s.stand n
  if !r.loaded ∨ !r.run then s
  else
    let s1 := (s.setRun n false).modStand n fun r => { r with run := false }
    s1.produce r.pair { type := 2, tag := r.tag, status := status, len := 2,
                        body := le 2 n ++ le 1 code ++ le 5 0 ++ le 4 wa ++ le 4 wb }

/-- START of a stand: a run begins unless one is in progress (R253). -/
def State.startRun (s : State) (n tag : Nat) : State :=
  let r := s.stand n
  if !r.loaded then s
  else
    let s1 := s.setRun n true
    if r.run then s1 else s1.modStand n fun r => { r with run := true, tag := tag }

/-- A stand holds a core of a fenced grove (R436). -/
def State.standFenced (s : State) (n : Nat) : Bool :=
  s.groves.any fun p => p.2.fence && rectInGrove (s.stand n).rect p.1

/-- A request of TDONE or STCTL (R253): 0 START, 1 STOP, 2 ABORT, 3 DONE. -/
def State.standReq (s : State) (op n : Nat) (code : BitVec 8) : State :=
  if !(s.stand n).loaded then s
  else match op with
    | 0 => if s.standFenced n then s else s.startRun n 0
    | 1 => s.setRun n false
    | 2 => if (s.stand n).run then s.endRun n 0x11 0 0 0 else s.setRun n false
    | _ => s.endRun n 0x10 code.toNat 0 0

/-- The runs of every loaded stand with a core in a grove complete with a status (R411, R436). -/
def State.endRunsIn (s : State) (g status wa wb : Nat) : State :=
  (s.loadedStands.filter fun n => rectInGrove (s.stand n).rect g).foldl (fun s n => s.endRun n status 0 wa wb) s

/-! ## Requests of a core -/

/-- The requests that an instruction has just made of the module (R168, R253). -/
def State.drain (s : State) (w : Nat) : State :=
  let reqs := (s.core w).t.reqs
  let s1 := s.modCore w fun c => { c with t := { c.t with reqs := [] } }
  reqs.foldl (fun s r => match r with
    | .stand op n code => s.standReq op n code
    | .takeCheck job => s.modCore (checkerOf w) fun c =>
        { c with f := { c.f with mx := { c.f.mx with check := some { origin := w, job := job } } } }) s1

/-- The state after an operation of core w. -/
def State.onCore (s : State) (w : Nat) (f : Core → Core) : State := (s.modCore w f).drain w

/-! ## Configuration accesses -/

/-- Reads of a port controller's space (Table 13.2). -/
def State.portRead (s : State) (m off requester : Nat) : Word × State :=
  let p := s.port m
  let key := 65536 * requester + off
  if off = 0x0 then (s.lead.near.extractLsb' 0 32, s)
  else if off = 0x4 then (s.lead.near.extractLsb' 32 32, s)
  else if off = 0x8 then (s.lead.absent.extractLsb' 0 32, s)
  else if off = 0xC then (s.lead.absent.extractLsb' 32 32, s)
  else if off = 0x10 then
    (pack [(if s.lead.absent.getLsbD m then 2 else if s.lead.near.getLsbD m then 1 else 0, 0), (b2n (p.lost || p.cut), 2),
      (p.reqs.length, 3), (p.merge.length, 14)], s)
  else if off = 0x14 then (pack [(p.hold.toNat, 0), (b2n p.mergeEn, 8)], s)
  else if off = 0x18 then (p.errAddr, s)
  else match blk off 0x20 8 6 with
    | none => (0, s)
    | some (i, 0) =>
      let v := sget 0 p.cnt i
      (fld v 0 32, s.modPort m fun p => { p with latch := sset 0 p.latch (key + 4) (fld v 32 32) })
    | some (_, 4) => (sget 0 p.latch key, s)
    | some _ => (0, s)

/-- Writes of a port controller's space (Table 13.2). -/
def State.portWrite (s : State) (m off : Nat) (v : Word) : State :=
  if off = 0x14 then s.modPort m fun p =>
    { p with hold := fld v 0 8, mergeEn := bitOf v 8, cnt := if bitOf v 9 then [] else p.cnt }
  else s

/-- The number of an engine from die and engine number (R356). -/
def engineNo (d k : Nat) : Nat := if k < 2 then 2 * d + k else 48 + k
/-- Die and engine number of engine e (R356). -/
def engineName (e : Nat) : Nat × Nat := if e < 50 then (e / 2, e % 2) else (2, e - 48)

/-- The bytes of an engine's buffer reserved: reads outstanding and pieces landed (R363). -/
def Xfer.held (x : Xfer) : Nat :=
  ((x.reqs.filter fun r => decide (r.side < 2)).map (·.len)).foldl (· + ·) 0 + (x.bufA.map fun p => p.2.length).foldl (· + ·) 0
    + (x.bufB.map fun p => p.2.length).foldl (· + ·) 0

/-- Reads of an engine's space (Table 15.6). -/
def State.engineRead (s : State) (e off requester : Nat) : Word × State :=
  let x := s.engine e
  let (d, k) := engineName e
  let key := 65536 * requester + off
  if off = 0x0 then (pack [(d, 0), (k, 5), (b2n (decide (2 ≤ k)), 9)], s)
  else if off = 0x4 then
    (pack [(x.xfers.length, 0), (((x.xfers.map Xfer.held).foldl (· + ·) 0 + 63) / 64, 7), (x.lastReason.toNat, 18)], s)
  else if off = 0xC then
    (pack [(x.bufCe.toNat, 0), (x.bufUe.toNat, 16)], s.modEngine e fun x => { x with bufCe := 0, bufUe := 0 })
  else match blk off 0x20 8 7 with
    | none => (0, s)
    | some (i, 0) =>
      let v := sget 0 x.cnt i
      (fld v 0 32, s.modEngine e fun x => { x with latch := sset 0 x.latch (key + 4) (fld v 32 32) })
    | some (_, 4) => (sget 0 x.latch key, s)
    | some _ => (0, s)

/-- Writes of an engine's space (Table 15.6). -/
def State.engineWrite (s : State) (e off : Nat) (v : Word) : State :=
  if off = 0x8 ∧ bitOf v 0 then s.modEngine e fun x => { x with cnt := [] } else s

/-- Whether a target names a part of the module. -/
def targetOk : CfgTarget → Bool
  | .core c => coreOk c
  | .port m => decide (m < 64)
  | .dma e => decide (e < 58)
  | .bar0 _ => true
  | .bar2 => true

/-- The die of a target. -/
def targetDie : CfgTarget → Nat
  | .core c => dieOf c
  | .port m => portDie m
  | .dma e => (engineName e).1
  | .bar0 _ => 2
  | .bar2 => 2

/-- A write that leaves no core of a stand STALLED lets the stand's next stall be reported (R247). -/
def State.settleStall (s : State) (w : Nat) : State :=
  match s.standOf w with
  | none => s
  | some n =>
    if (s.stand n).stallPosted && !(s.stand n).cores.any fun v => (s.core v).f.st.stalled then
      s.modStand n fun r => { r with stallPosted := false }
    else s

/-- An access to core w that goes on: status, value, state (R200, R297). -/
def State.coreAccess (s : State) (w off requester : Nat) (write : Option Word) : Nat × Word × State :=
  let held := trunkHeld off || decide (off = 0xDC0)
  let s1 := if held then s else s.wake (groveOf w)
  let x := s1.cfgEnv w requester
  match write with
  | some v =>
    let (c, ok) := (s1.core w).cfgWrite x off v
    (if ok then 0 else 1, 0, ((s1.setCore w c).drain w).settleStall w)
  | none =>
    let ((v, c), ok) := (s1.core w).cfgRead x off
    let s2 := s1.setCore w c
    let s3 := if off = 0xB84 then s2.modGrove (groveOf w) fun g => { g with peak := g.temp } else s2
    (if ok then 0 else 1, v, s3)

/-- An understory access: its status, the value of a read, and the state after it (R297, Table 12.6). BAR0 and BAR2 are not on the understory. -/
def State.access (s : State) (q : UReq) : Nat × Word × State :=
  if !s.dieUp (targetDie q.target) then (5, 0, s)
  else match q.target with
    | .core w =>
      match s.accessStop w q.offset q.write.isSome with
      | some st => (st, 0, s)
      | none => s.coreAccess w q.offset q.requester q.write
    | .port m =>
      match q.write with
      | some v => (0, 0, s.portWrite m q.offset v)
      | none => let (v, s') := s.portRead m q.offset q.requester; (0, v, s')
    | .dma e =>
      match q.write with
      | some v => (0, 0, s.engineWrite e q.offset v)
      | none => let (v, s') := s.engineRead e q.offset q.requester; (0, v, s')
    | .bar0 _ => (5, 0, s)
    | .bar2 => (5, 0, s)

/-- The state after an understory access that is a command: its status and value are back at the requester (R297). -/
def State.answered (s : State) (q : UReq) : State :=
  let (st, v, s1) := s.access q
  { s1 with answers := sset (0, 0) s1.answers q.requester (st, v) }

/-- The requester number of the host's accesses through the lead. -/
def hostReq : Nat := 25

/-- A write of a core's register as its own command: the access of R297 by the host. -/
def State.writeReg (s : State) (w off : Nat) (v : Word) : Out :=
  guard (coreOk w) (s.answered { requester := hostReq, target := .core w, offset := off, write := some v })

end Sys2Proof.Machine
end

