-- ==== Sys2Proof/Machine/Mesh.lean ====
section
/-! DEFINITION. The mesh: where packets enter and leave it, what a router moves in a die cycle, seam crossings, and what arrives at a
core or a port (R18, R283 to R292, R200, R357, R408, R427). -/
namespace Sys2Proof.Machine

/-! ## Entries and exits -/

/-- The memory ports of a die, lowest number first (R357). -/
def diePorts (d : Nat) : List Nat := (List.range 64).filter fun m => decide (portDie m = d)

/-- The port beside engine e (R357). -/
def beside (e : Nat) : Node :=
  let (d, k) := engineName e
  if 2 ≤ k then .cxl
  else if k = 0 then .mem ((diePorts d).headD 0)
  else .mem ((diePorts d).getLastD 0)

/-- The port at whose attachments a node's traffic enters and leaves the mesh. -/
def Node.gate : Node → Node
  | .dma e => beside e
  | n => n

/-- A core by which the traffic of a node to a port is routed: the core itself, a port's first attachment core (Tables 01.5, 01.6), that of
the port beside an engine, a host engine's own attachment core (R357; log 17). -/
def firstCore (n : Node) : Nat :=
  match n with
  | .core w => w
  | .dma e => if 2 ≤ (engineName e).2 then wordXY (198 + ((engineName e).2 - 2) % 4) 0 else gateCore (beside e)
  | n => gateCore n
where
  /-- The first attachment core of a port. -/
  gateCore : Node → Nat
    | .mem m => dieCore (portDie m) (portLx0 m) (portRow m)
    | n => match extBase n with
      | some (x, y, _) => wordXY x y
      | none => 0

/-- The attachment core and attachment number at which node n's traffic with core w joins the mesh, and whether the edge is vertical
(R286, R357). -/
def joinOf (n : Node) (w : Nat) : Nat × Nat × Bool :=
  match n with
  | .dma e =>
    let (_, k) := engineName e
    if 2 ≤ k then (wordXY (198 + (k - 2) % 4) 0, 0, false)
    else
      let (a, v) := (attachOf (beside e) w).getD (0, false)
      (a, if v && (attachment a 1).isSome then 1 else 0, v)
  | n =>
    let (a, v) := (attachOf n w).getD (0, false)
    (a, if v && (attachment a 1).isSome then 1 else 0, v)

/-- Where a packet leaves the mesh: the core, and the output port of its router (4 local, 5 and 6 attachments). -/
def Packet.exit (p : Packet) : Nat × Nat :=
  match p.dst with
  | .core b => (b, 4)
  | n =>
    let (a, k, _) := joinOf n (firstCore p.src)
    (a, 5 + k)

/-- Where a packet of a port or engine enters the mesh: the core, the attachment, and whether the edge is vertical. -/
def entryOf (src dst : Node) : Nat × Nat × Bool :=
  match dst with
  | .core b => joinOf src b
  | n => joinOf src (joinOf n (firstCore src)).1

/-- The order of a route between a port and a core: R286's, or the opposite where that route enters an unavailable grove (R287). -/
def State.orderOr (s : State) (a b : Nat) (yx : Bool) : Bool := if s.routeOk a b yx then yx else !yx

/-- A packet of a port or engine, waiting to enter the mesh at its attachment: a port's through the dual-clock queue, an engine's on the mesh
side of it (R286, R292, R357). -/
def State.fromPort (s : State) (src dst : Node) (resp : Bool) (bytes : Nat) (body : Body) : State :=
  let (a, k, v) := entryOf src dst
  let b := match dst with
    | .core b => b
    | n => (joinOf n (firstCore src)).1
  let pkt := mkPacket src dst (s.orderOr a b (orderFromPort v)) resp bytes body
  s.modCore a fun c => { c with t := { c.t with router := match src with
    | .dma _ => { c.t.router with engSrc := smod [] c.t.router.engSrc k (· ++ [pkt]) }
    | _ => { c.t.router with attSrc := smod [] c.t.router.attSrc k (· ++ [pkt]) } } }

/-- A response of core w to node n (R259, R267, R286). -/
def State.respondTo (s : State) (w : Nat) (n : Node) (bytes : Nat) (body : Body) : State :=
  match n with
  | .core b => s.modCore w fun c => c.sendTo w b true bytes body
  | n =>
    let (a, _, v) := joinOf n w
    s.modCore w fun c => c.sendPkt (mkPacket (.core w) n (s.orderOr w a (orderToPort v)) true bytes body)

/-! ## Router state -/

/-- The core with its router changed. -/
def Core.modRouter (c : Core) (f : Router → Router) : Core := { c with t := { c.t with router := f c.t.router } }

/-- Flits that a buffer holds for a virtual channel: four, or a crossing queue's share (R284, R290). -/
def roomOf (crossing : Bool) (vc : Nat) : Nat := if crossing then (if vc < 2 then 6 else 2) else 4

/-- Whether input port i of a router holds fewer than four flits of a virtual channel (R284). -/
def Router.inRoom (r : Router) (i vc : Nat) : Bool := decide ((sget [] r.inq (4 * i + vc)).length < roomOf false vc)

/-- Whether a crossing queue has room for a flit of a virtual channel (R290, R292). -/
def crossRoom (q : List Flit) (vc : Nat) : Bool := decide (vcCount q vc < roomOf true vc)

/-- The first waiting packet of source i that can send a flit, with the number of that flit: `room` by virtual channel and number. -/
def Router.ready (r : Router) (i : Nat) (room : Nat → Nat → Bool) : List Packet → List Nat → Option (Packet × Nat)
  | [], _ => none
  | p :: ps, seen =>
    let vc := p.vc.toNat
    let n := sget 0 r.inj (4 * i + vc)
    if vc ∉ seen ∧ room vc n then some (p, n) else r.ready i room ps (vc :: seen)

/-- The waiting packets without the first of a virtual channel. -/
def dropVc (vc : BitVec 2) : List Packet → List Packet
  | [] => []
  | p :: ps => if p.vc = vc then ps else p :: dropVc vc ps

/-- A flit put into an input buffer. -/
def Router.enter (r : Router) (i : Nat) (f : Flit) : Router := { r with inq := smod [] r.inq (4 * i + f.pkt.vc.toNat) (· ++ [f]) }

/-- One flit of a waiting packet of source i leaves it: the flit, the router, and the packets still waiting (R284). -/
def Router.inject (r : Router) (i : Nat) (room : Nat → Nat → Bool) (q : List Packet) : Option Flit × Router × List Packet :=
  match r.ready i room q [] with
  | none => (none, r, q)
  | some (p, n) =>
    let key := 4 * i + p.vc.toNat
    let last := decide (p.flits ≤ n + 1)
    (some { pkt := p, idx := n }, { r with inj := sset 0 r.inj key (if last then 0 else n + 1) }, if last then dropVc p.vc q else q)

/-- Whether a message of the port at attachment k is part-way into the router on a virtual channel. -/
def Router.midway (r : Router) (k vc : Nat) : Bool :=
  match (sget [] r.attIn k).find? fun f => decide (f.pkt.vc.toNat = vc) with
  | some f => decide (f.idx ≠ 0)
  | none => decide (sget 0 r.inj (4 * (7 + k) + vc) ≠ 0)

/-- The flit that enters from attachment k in a cycle that begins with router r0: the oldest of its queue, else one of an engine beside the
port; the messages of a virtual channel enter one after another (R284, R292, R357). -/
def Router.enterAtt (r0 r : Router) (k : Nat) : Router :=
  let i := 5 + k
  match sget [] r0.attIn k with
  | f :: _ =>
    if r0.inRoom i f.pkt.vc.toNat && (decide (f.idx ≠ 0) || decide (sget 0 r0.inj (4 * i + f.pkt.vc.toNat) = 0)) then
      ({ r with attIn := sset [] r.attIn k ((sget [] r.attIn k).drop 1) } : Router).enter i f
    else engine r i
  | [] => engine r i
where
  /-- A flit of an engine at attachment k = i − 5. -/
  engine (r : Router) (i : Nat) : Router :=
    match r.inject i (fun vc n => r0.inRoom i vc && (decide (n ≠ 0) || !r0.midway k vc)) (sget [] r.engSrc k) with
    | (some f, r1, q) => ({ r1 with engSrc := sset [] r1.engSrc k q } : Router).enter i f
    | (none, _, _) => r

/-- The flit that a port writes into its queue toward the mesh in a cycle that begins with router r0 (R292). -/
def Router.fillAtt (r0 r : Router) (k : Nat) : Router :=
  match r.inject (7 + k) (fun vc _ => crossRoom (sget [] r0.attIn k) vc) (sget [] r.attSrc k) with
  | (some f, r1, q) => { r1 with attSrc := sset [] r1.attSrc k q, attIn := smod [] r1.attIn k (· ++ [f]) }
  | (none, _, _) => r

/-- The flits that enter from the core and from the ports in a cycle that begins with router r0 (R284). -/
def Core.injectAll (c : Core) (r0 : Router) : Core :=
  let (f, r1, q) := c.t.router.inject 4 (fun vc _ => r0.inRoom 4 vc) c.t.outq
  let r2 := match f with
    | some f => r1.enter 4 f
    | none => r1
  { c with t := { c.t with outq := q, router := [0, 1].foldl (fun r k => r0.fillAtt (r0.enterAtt r k) k) r2 } }

/-! ## What arrives -/

/-- The tracked range of the transfer in a slot of engine e after an access of it moved n bytes at a (Table 06.3). -/
def DmaRange.moved (r : DmaRange) (e slot a n : Nat) (dst : Bool) : DmaRange :=
  if r.eng = e ∧ r.slot = slot ∧ r.dst = dst ∧ !r.fixed ∧ r.base = a then { r with base := a + n, len := r.len - n } else r

/-- The core after a transfer, by engine and slot, moved n bytes at a. -/
def Core.dmaMoved (c : Core) (x : Option (Nat × Nat)) (a n : Nat) (dst : Bool) : Core :=
  match x with
  | some (e, slot) => { c with f := { c.f with dmaRange := c.f.dmaRange.map fun r => r.moved e slot a n dst } }
  | none => c

/-- A DMA access of a transfer to a core's scratchpad (R363, R364, Table 15.4): its answer and the core. -/
def Core.dmaAccess (c : Core) (x : Option (Nat × Nat)) (b : Body) : Option Body × Core :=
  match b with
  | .dread id a n =>
    match c.readSpad a n with
    | (some _, _, c1) => (some (.drep id 2 []), c1)
    | (none, bs, c1) => (some (.drep id 0 bs), c1.dmaMoved x a n false)
  | .dwrite id a bs => (some (.dack id 0), (c.routerWrite a bs).dmaMoved x a bs.length true)
  | _ => (none, c)

/-- The transfer, by engine and slot, that a DMA access belongs to. -/
def State.xferOf (s : State) (p : Packet) : Option (Nat × Nat) :=
  let find := fun (e id : Nat) => ((s.engine e).xfers.find? fun x => x.reqs.any fun r => decide (r.id = id)).map fun x => (e, x.slot)
  match p.src, p.body with
  | .dma e, .dread id .. => find e id
  | .dma e, .dwrite id .. => find e id
  | _, _ => none

/-- A DMA access served at core w: its answer leaves (R363, R364). -/
def State.answerDma (s : State) (w : Nat) (p : Packet) (c : Core) (r : Body) : State :=
  (s.setCore w { c with t := { c.t with rused := true } }).respondTo w p.src (match r with
    | .drep _ _ bs => bs.length
    | _ => 1) r

/-- The DMA accesses at the head of core w's inbox served, n at most (R364): no row names them. -/
def State.serveDma (s : State) (w : Nat) : Nat → State
  | 0 => s
  | n + 1 =>
    match (s.core w).t.inbox with
    | [] => s
    | p :: rest =>
      match (s.core w).dmaAccess (s.xferOf p) p.body with
      | (some r, c) => (s.answerDma w p { c with t := { c.t with inbox := rest } } r).serveDma w n
      | (none, _) => s

/-- A delivery that the core takes: a DMA access at once, unless an earlier delivery still waits, anything else waits for its landing
(R123, R364). -/
def State.takeIn (s : State) (w : Nat) (p : Packet) : State :=
  (s.modCore w fun c => { c with t := { c.t with inbox := c.t.inbox ++ [p] } }).serveDma w (if (s.core w).t.inbox.isEmpty then 1 else 0)

/-- Whether an answer is a reject. -/
def Body.isReject : Body → Bool
  | .reject .. => true
  | _ => false

/-- A packet refused at the router of core w, its target: a request answered, and a reject counted by the core (CH_REJECT_OUT, R281); a
response lost (R408, R427). -/
def State.refuseAt (s : State) (w : Nat) (p : Packet) (clr : Bool) : State :=
  match refusalOf clr p.dst p.body with
  | some r => (s.modCore w fun c => c.bump (cntChan 7) (b2n r.isReject)).respondTo w p.src 1 r
  | none => s.modCore w fun c => c.lose p.body

/-- A packet that core w's router, the last before an unavailable grove or a lost die, turns back as UNREACHABLE (R18, R270, R440). A
response has no one to return to: it ends there (log 17). -/
def State.turnBack (s : State) (w : Nat) (p : Packet) : State :=
  match refusalOf false p.dst p.body with
  | some r => s.respondTo w p.src 1 r
  | none => s

/-- A packet whose last flit has reached the local port (R200, R289, R408, R427). -/
def State.arrive (s : State) (w : Nat) (p : Packet) : State :=
  if (s.grove (groveOf w)).selfTest then s.refuseAt w p false
  else match s.gstate w with
  | 1 => if (s.core w).t.held.isEmpty then s.takeIn w p
         else s.modCore w fun c => { c with t := { c.t with held := c.t.held ++ [p] } }
  | 2 => s.modCore w fun c => { c with t := { c.t with held := c.t.held ++ [p] } }
  | 5 => s.refuseAt w p false
  | _ => s.refuseAt w p true

/-- A flow whose ended records at the head of the ring have been freed (R381). -/
def Flow.trim (f : Flow) : Flow := { f with ring := f.ring.dropWhile (·.done) }

/-- The flow of a port with f applied. -/
def Eth.modFlow (x : Eth) (n : Nat) (f : Flow → Flow) : Eth := { x with flows := smod {} x.flows n f }

/-- The flow and receive record of a delivery number. -/
def Eth.record (x : Eth) (id : Nat) : Option (Nat × RxRec) :=
  x.flows.findSome? fun p => (p.2.ring.find? fun r => decide (r.id = id)).map fun r => (p.1, r)

/-- The pair that a record is delivered to (R380). -/
def RxRec.key (r : RxRec) : Nat := 32 * r.core + r.ep.toNat

/-- A record of a flow whose delivery has ended. -/
def Eth.endRecord (x : Eth) (n id : Nat) : Eth :=
  x.modFlow n fun f => ({ f with ring := f.ring.map fun r => if r.id = id then { r with done := true } else r } : Flow).trim

/-- An ITEM_ERR item (Table 16.3). -/
def errItem (status item pktNo : Nat) : List Byte := le 1 7 ++ le 1 0 ++ le 2 8 ++ le 1 status ++ le 1 item ++ le 2 0 ++ le 8 pktNo

/-- ITEM_ERR queued for the peer of an open flow (R375, R378). -/
def Eth.sendErr (x : Eth) (n status item pktNo : Nat) : Eth :=
  if !(sget {} x.flows n).open_ then x else x.modFlow n fun f => { f with items := f.items ++ [errItem status item pktNo] }

/-- The pieces of an MREAD with an answer placed (R382). -/
def MRead.land (m : MRead) (id : Nat) (fault : BitVec 4) (data : List Byte) : MRead :=
  match m.wait.find? fun p => decide (p.1 = id) with
  | none => m
  | some (_, off) =>
    { m with wait := m.wait.filter fun p => !decide (p.1 = id)
             got := if fault = 0 then m.got ++ [(off, data)] else m.got
             bad := if m.bad = 0 then fault.toNat else m.bad }

/-- The records of a pair from seq on, to be sent again after a RESUME (R269, R380). -/
def Eth.resume (x : Eth) (seq : BitVec 8) (id : Nat) : Eth :=
  match x.record id with
  | none => x
  | some (_, r) =>
    let next := sget 0 x.seqs r.key
    let back := fun (y : RxRec) => decide (y.key = r.key) && y.sent && !y.done &&
      (match y.seq with
      | some q => decide ((next - q).toNat ≤ (next - seq).toNat)
      | none => false)
    { x with
      flows := x.flows.map fun p => (p.1, { p.2 with ring := p.2.ring.map fun y => if back y then { y with sent := false } else y })
      recov := x.recov.filter fun k => !decide (k = r.key) }

/-- A delivery refused: the record freed, ITEM_ERR BAD_STATE to the peer of an item, and the pair's numbering started again, out of any
recovery (R269, R270, R380). -/
def Eth.refused (x : Eth) (id : Nat) : Eth :=
  match x.record id with
  | none => x
  | some (n, r) =>
    let y := x.endRecord n id
    let z := { y with seqs := sset 0 y.seqs r.key 0, recov := y.recov.filter fun k => !decide (k = r.key) }
    if r.srcEp.toNat < 16 then z.sendErr n 5 r.item r.pktNo else z

/-- A response that has reached a port block (R380, R382). -/
def Eth.answer (x : Eth) (b : Body) : Eth :=
  match b with
  | .ack _ _ id =>
    match x.record id with
    | some (n, _) => x.endRecord n id
    | none => x
  | .nack _ _ id =>
    match x.record id with
    | some (_, r) => { x with recov := r.key :: x.recov.filter fun k => !decide (k = r.key) }
    | none => x
  | .resume _ seq id => x.resume seq id
  | .reject _ _ id _ => x.refused id
  | .drep id f bs => { x with flows := x.flows.map fun q => (q.1, { q.2 with reads := q.2.reads.map fun m => m.land id f bs }) }
  | .dack id f => { x with acks := x.acks ++ [(id, f)] }
  | _ => x

/-! ## Messages of cores to a flow -/

/-- Messages a port holds: taken, and in packets not acknowledged (R379). -/
def Eth.holding (x : Eth) : Nat := x.msgs.length + (x.flows.map fun p => (p.2.unacked.map fun q => q.msgs.length).foldl (· + ·) 0).foldl (· + ·) 0

/-- Whether a flow takes a message or signal for an endpoint: an open flow's peer endpoint, or, for a signal, the done counter of a
stream bound to it (R374, R375, R379, R386). -/
def Eth.takes (x : Eth) (flow : Nat) (dst : BitVec 5) (signal : Bool) : Bool :=
  if dst.toNat < 16 then (sget {} x.flows flow).open_
  else
    let y := sget {} x.streams (dst.toNat - 16)
    signal && y.open_ && decide (y.flow = flow)

/-- A message of core w at port e: its answer at once, if it has one, and the port after it (R269, R374, R379). A message taken is
answered when its packet is acknowledged. -/
def Eth.message (x : Eth) (w : Nat) (p : Packet) (flow : Nat) (se de : BitVec 5) (seq : BitVec 8) (tag : Nat) (signal : Bool) :
    Option Body × Eth :=
  let gap := x.gaps.find? fun g => decide (g.core = w ∧ g.ep = se ∧ g.tag = tag)
  let rest := x.gaps.filter fun g => !decide (g.core = w ∧ g.ep = se)
  if !x.takes flow de signal then (some (.reject se seq tag .rejected), x)
  else if (match gap with
      | some g => decide (g.seq ≠ seq)
      | none => false) then (none, x)
  else if 256 ≤ x.holding then (some (.nack se seq tag), { x with gaps := rest ++ [⟨w, se, seq, tag, false⟩] })
  else (none, { x with msgs := x.msgs ++ [p], gaps := rest })

/-- A packet whose last flit has reached a port block's attachment (R379, R380, R382). -/
def State.atEth (s : State) (e : Nat) (p : Packet) : State :=
  let take := fun (flow : Nat) (se de : BitVec 5) (seq : BitVec 8) (tag : Nat) (signal : Bool) =>
    let (r, x) := (s.eth e).message (firstCore p.src) p flow se de seq tag signal
    let s1 := s.modEth e fun _ => x
    match r with
    | some b => s1.fromPort (.eth e) p.src true 1 b
    | none => s1
  match p.body with
  | .emsg flow se de seq tag _ => take flow se de seq tag false
  | .esig flow se de seq tag _ => take flow se de seq tag true
  | b => s.modEth e fun x => x.answer b

/-- The fault with the lower offset (R368). -/
def lowerFault (a b : Option (Nat × Nat)) : Option (Nat × Nat) :=
  match a, b with
  | some x, some y => if y.2 < x.2 then some y else some x
  | some x, none => some x
  | none, y => y

/-- A write of a transfer acknowledged, with the REASON of its fault or 0 (R365, R368). -/
def Xfer.ack (x : Xfer) (id reason : Nat) : Xfer :=
  match x.reqs.find? fun r => decide (r.id = id) with
  | none => x
  | some r =>
    { x with reqs := x.reqs.filter fun r => !decide (r.id = id)
             fault := if reason = 0 then x.fault else lowerFault x.fault (some (reason, r.off)) }

/-- An answer that has reached an engine: an acknowledgement is taken at once, a read reply waits to land. -/
def Engine.take (x : Engine) (p : Packet) : Engine :=
  match p.body with
  | .dack id f => { x with xfers := x.xfers.map fun t => t.ack id f.toNat }
  | _ => { x with replies := x.replies ++ [p] }

/-- A packet whose last flit has reached an engine, an Ethernet port or the CXL port, where it waits for the host (R331, R357). -/
def State.atPort (s : State) (p : Packet) : State :=
  match p.dst with
  | .dma e => s.modEngine e fun x => x.take p
  | .eth e => s.atEth e p
  | .cxl => { s with cxl := { s.cxl with direct := s.cxl.direct ++ [p] } }
  | _ => s

/-- Whether a packet crosses the dual-clock queue to its port (R292): all but an engine's, which stands on the mesh side of it (R357). -/
def Packet.crosses (p : Packet) : Bool :=
  match p.dst with
  | .dma _ => false
  | _ => true

/-- The part of a packet that arrives whole with flit n at the local port: the packet with its last flit, and of a stream reply of more
than 64 bytes each 64-byte piece with its own (R289). -/
def Packet.partAt (p : Packet) (n : Nat) : Option Packet :=
  let last := decide (p.flits ≤ n + 1)
  match p.body with
  | .rrep id st ep 0 data =>
    if data.length ≤ 64 then (if last then some p else none)
    else if last || decide (n % 2 = 1) then
      some { p with body := .rpiece id st ep (64 * (n / 2)) ((data.drop (64 * (n / 2))).take 64) last }
    else none
  | _ => if last then some p else none

/-! ## Arbitration -/

/-- The output of the packet at the head of an input: 0 to 6, or 7 where the next router carries no traffic (R18, R440). -/
def State.outputOf (s : State) (w : Nat) (p : Packet) : Nat :=
  let (b, o) := p.exit
  match nextSide w b p.yx with
  | none => o
  | some side =>
    match neighbour w side with
    | none => 7
    | some v => if (s.grove (groveOf v)).unavail || !s.dieUp (dieOf v) then 7 else side

/-- Whether output o of core w's router has room for a flit of a virtual channel at the start of the cycle (R284, R290). -/
def State.outRoom (s : State) (w o vc : Nat) : Bool :=
  if o < 4 then
    match neighbour w o with
    | none => false
    | some v =>
      let r := (s.core v).t.router
      if isSeam w o then crossRoom (sget [] r.xq (opposite o)) vc else r.inRoom (opposite o) vc
  else if o = 5 ∨ o = 6 then crossRoom (sget [] (s.core w).t.router.attOut (o - 5)) vc
  else true

/-- The inputs in the order in which output o takes them: VC 2, 3, 0, 1; in each, the ports from the pointer (R288). -/
def Router.scan (r : Router) (o : Nat) : List Nat :=
  let start := let p := sget 0 r.rr o; if p = 0 then 4 else p % 7
  [2, 3, 0, 1].flatMap fun vc => (List.range 7).map fun i => 4 * ((start + i) % 7) + vc

/-- The input whose flit output o moves: the holder's, or the first head flit with room (R288). -/
def State.chooseFor (s : State) (w o : Nat) : Option (Nat × Flit) :=
  let r := (s.core w).t.router
  let headOf := fun (key : Nat) => (sget [] r.inq key).head?
  let fits := fun (key : Nat) (start : Bool) =>
    match headOf key with
    | some f => (!start || decide (f.idx = 0)) && decide (s.outputOf w f.pkt = o) && s.outRoom w o f.pkt.vc.toNat
    | none => false
  match sget none r.hold o with
  | some (key, _) => if fits key false then (headOf key).map fun f => (key, f) else none
  | none => ((r.scan o).find? fun key => fits key true).bind fun key => (headOf key).map fun f => (key, f)

/-- A flit pushed to output o's far end. -/
def State.pushFlit (s : State) (w o : Nat) (f : Flit) : State :=
  let last := decide (f.pkt.flits ≤ f.idx + 1)
  if o < 4 then
    match neighbour w o with
    | none => s
    | some v => s.modCore v fun c => c.modRouter fun r =>
        if isSeam w o then
          let q := sget [] r.xq (opposite o) ++ [f]
          let h := sget 0 r.xhwm (opposite o)
          { r with xq := sset [] r.xq (opposite o) q
                   xhwm := sset 0 r.xhwm (opposite o) (if h.toNat < q.length then BitVec.ofNat 5 q.length else h) }
        else { r with inq := smod [] r.inq (4 * opposite o + f.pkt.vc.toNat) (· ++ [f]) }
  else if o = 4 then (match f.pkt.partAt f.idx with
    | some p => s.arrive w p
    | none => s)
  else if o = 7 then (if last then s.turnBack w f.pkt else s)
  else if f.pkt.crosses then s.modCore w fun c => c.modRouter fun r => { r with attOut := smod [] r.attOut (o - 5) (· ++ [f]) }
  else if last then s.atPort f.pkt
  else s

/-- Output o of core w's router moves the flit that it chooses on what state s0 shows (R284, R288). -/
def State.runOutput (s0 : State) (w : Nat) (s : State) (o : Nat) : State :=
  match s0.chooseFor w o with
  | none => s
  | some (key, f) =>
    let last := decide (f.pkt.flits ≤ f.idx + 1)
    (s.modCore w fun c => c.modRouter fun r =>
      { r with inq := smod [] r.inq key (·.drop 1)
               hold := sset none r.hold o (if last then none else some (key, f.pkt))
               rr := sset 0 r.rr o (key / 4 + 1) }).pushFlit w o f

/-- The sides at which a flit of this router waits for room in a crossing queue: FULL_CYC (R293). -/
def State.countFull (s : State) (w : Nat) : State :=
  [0, 1, 2, 3].foldl (fun (t : State) o =>
    match neighbour w o with
    | none => t
    | some v =>
      let blocked := (List.range 28).any fun key =>
        match (sget [] (s.core w).t.router.inq key).head? with
        | some f => decide (s.outputOf w f.pkt = o) && !s.outRoom w o f.pkt.vc.toNat
        | none => false
      if isSeam w o && blocked then t.modCore v fun c => c.modRouter fun r =>
        { r with xfull := smod 0 r.xfull (opposite o) (satAdd · 1) } else t) s

/-- The flit that an external port reads from attachment queue k of core w in a cycle; with its last flit a packet is at the port (R292;
log 17). -/
def State.drainExt (w : Nat) (s : State) (k : Nat) : State :=
  let take := fun (f : Flit) (fs : List Flit) =>
    let s1 := s.modCore w fun c => c.modRouter fun r => { r with attOut := sset [] r.attOut k fs }
    if f.pkt.flits ≤ f.idx + 1 then s1.atPort f.pkt else s1
  match sget [] (s.core w).t.router.attOut k with
  | [] => s
  | f :: fs =>
    match f.pkt.dst with
    | .eth _ => take f fs
    | .cxl => take f fs
    | _ => s

/-- One die cycle of core w's router: room and choices are those of its start (R284, R288). -/
def State.routerCycle (s : State) (w : Nat) : State :=
  if !s.dieUp (dieOf w) || (s.grove (groveOf w)).unavail then s
  else
    let s1 := [0, 1].foldl (State.drainExt w) (s.countFull w)
    ((List.range 8).foldl (s.runOutput w) s1).modCore w fun c => c.injectAll (s.core w).t.router

/-- The oldest flit of a crossing queue enters its router (R290, R291). -/
def State.cross (s : State) (w side : Nat) : State :=
  let r := (s.core w).t.router
  match sget [] r.xq side with
  | [] => s
  | f :: fs =>
    if !r.inRoom side f.pkt.vc.toNat || (s.grove (groveOf w)).unavail || !s.dieUp (dieOf w) then s
    else s.modCore w fun c => c.modRouter fun r =>
      { r with xq := sset [] r.xq side fs, inq := smod [] r.inq (4 * side + f.pkt.vc.toNat) (· ++ [f]) }

/-! ## A grove whose routers stop -/

/-- The packets with a flit in a router: in its input buffers, its crossing queues, its attachment queues. -/
def Router.inside (r : Router) : List Packet :=
  [r.inq, r.xq, r.attIn, r.attOut].flatMap fun m => m.flatMap fun p => p.2.map (·.pkt)

/-- A router without some packets: their flits, the outputs they hold, and what their sources have still to send of them. -/
def Router.without (gone : Packet → Bool) (r : Router) : Router :=
  let keep := fun (q : List Flit) => q.filter fun f => !gone f.pkt
  let cut := fun (m : Sparse (List Flit)) => m.foldl (fun m p => sset [] m p.1 (keep p.2)) m
  { r with inq := cut r.inq, xq := cut r.xq, attIn := cut r.attIn, attOut := cut r.attOut
           hold := r.hold.foldl (fun m p => match p.2 with
             | some (_, pkt) => if gone pkt then sset none m p.1 none else m
             | none => m) r.hold }

/-- The waiting packets of source i without those of which a part has entered the mesh and is gone, and the router with their counts at 0. -/
def Router.unsend (gone : Packet → Bool) (i : Nat) (r : Router) (q : List Packet) : Router × List Packet :=
  (List.range 4).foldl (fun (r, q) vc =>
    match q.find? fun p => decide (p.vc.toNat = vc) with
    | some p => if gone p && decide (sget 0 r.inj (4 * i + vc) ≠ 0) then
        ({ r with inj := sset 0 r.inj (4 * i + vc) 0 }, dropVc (BitVec.ofNat 2 vc) q) else (r, q)
    | none => (r, q)) (r, q)

/-- A core's router and sources without some packets. -/
def Core.without (gone : Packet → Bool) (c : Core) : Core :=
  let (r1, q) := (c.t.router.without gone).unsend gone 4 c.t.outq
  let r2 := [0, 1].foldl (fun (r : Router) k =>
    let (ra, e) := r.unsend gone (5 + k) (sget [] r.engSrc k)
    let (rb, a) := ra.unsend gone (7 + k) (sget [] ra.attSrc k)
    { rb with engSrc := sset [] rb.engSrc k e, attSrc := sset [] rb.attSrc k a }) r1
  { c with t := { c.t with outq := q, router := r2 } }

/-- The core where a packet enters the mesh. -/
def Packet.entry (p : Packet) : Nat := match p.src with
  | .core w => w
  | n => (entryOf n p.dst).1

/-- The last core of a packet's route before its first core in grove g; none where it starts there. -/
def Packet.before (p : Packet) (g : Nat) : Option Nat :=
  ((p.entry :: route p.entry p.exit.1 p.yx).takeWhile fun w => !decide (groveOf w = g)).getLast?

/-- The routers of a grove carry no traffic any more: a message with a flit in one of them ends whole, and the router before the grove turns
it back (R18, R285; log 17). `back`: false where the die is lost, and its messages with it (R440). -/
def State.purge (s : State) (g : Nat) (back : Bool) : State :=
  let gone := ((s.cores.filter fun p => decide (groveOf p.1 = g)).flatMap fun p => p.2.t.router.inside).eraseDups
  if gone.isEmpty then s
  else
    let s1 : State := { s with cores := s.cores.foldl (fun m p => sset {} m p.1 ((s.core p.1).without fun x => decide (x ∈ gone))) s.cores }
    if back then gone.foldl (fun s p => match p.before g with
      | some w => s.turnBack w p
      | none => s) s1
    else s1

/-! ## Their commands -/

/-- ROUTER_OUTPUT_ARBITRATE (R288). -/
def execRouterOutputArbitrate (c : Nat) (s : State) : Out := guard (coreOk c) (s.routerCycle c)

/-- SEAM_CROSSING (R291). -/
def execSeamCrossing (c side : Nat) (s : State) : Out := guard (coreOk c && decide (side < 4)) (s.cross c side)

/-- GROVE_WAKE (R200): a gated grove with a delivery held runs again. -/
def execGroveWake (grove : Nat) (s : State) : Out :=
  guard (decide (grove < 750))
    (if (groveCores grove).any fun w => !(s.core w).t.held.isEmpty then s.wake grove else s)

/-- GATED_DELIVERY_LAND (R200): the deliveries held at core c land, in the order in which they arrived. -/
def execGatedDeliveryLand (c : Nat) (s : State) : Out :=
  guard (coreOk c)
    (if s.gstate c ≠ 1 then s
     else
       let held := (s.core c).t.held
       held.foldl (fun s p => s.takeIn c p) (s.modCore c fun x => { x with t := { x.t with held := [] } }))

/-- GROVE_IDLE_GATE (R199): every core of the grove has IDLE_EN and 64 consecutive idle cycles. -/
def execGroveIdleGate (grove : Nat) (s : State) : Out :=
  guard (decide (grove < 750))
    (if (s.grove grove).state = 1 ∧ (groveCores grove).all (fun w => (s.core w).t.idleEn && decide (64 ≤ (s.core w).t.idleCnt)) then
       s.modGrove grove fun g => { g with gated := true }
     else s)

end Sys2Proof.Machine
end

