-- ==== Sys2Proof/Machine/Memory.lean ====
section
/-! DEFINITION. Device memory, port controllers, the host window and host memory (R300 to R311, R329 to R331, R453, R454). -/
namespace Sys2Proof.Machine

/-! ## The map -/

/-- The SPREAD ports in increasing port number (R302). -/
def State.spread (s : State) : List Nat :=
  (List.range 64).filter fun m => !s.lead.absent.getLsbD m && !s.lead.near.getLsbD m

/-- A device address mapped to its port and port offset, or the reason of its failure: 6 UNMAPPED, 7 UNAVAILABLE (R302, R303). -/
def State.mapAddr (s : State) (a : Nat) : Nat ⊕ (Nat × Nat) :=
  let m := a / 2 ^ 35
  let off := a % 2 ^ 35
  let at_ := fun (p po : Nat) => if (s.port p).lost || (s.port p).cut then Sum.inl 7 else Sum.inr (p, po)
  if 64 ≤ m ∨ s.lead.absent.getLsbD m then .inl 6
  else if s.lead.near.getLsbD m then at_ m off
  else
    let ps := s.spread
    let k := (ps.filter fun p => decide (p < m)).length
    let o := k * 2 ^ 35 + off
    let u := o / 4096
    at_ (ps.getD (u % ps.length) 0) (u / ps.length * 4096 + o % 4096)

/-- The place of a port offset in device memory. -/
def memKey (m poff : Nat) : Nat := m * 2 ^ 35 + poff

/-- The sealed region that holds a device address (R453). -/
def State.regionAt (s : State) (a : Nat) : Option Region :=
  s.lead.regions.find? fun r => decide (r.base ≤ a ∧ a < r.base + r.len)

/-- The session a device line is sealed under; 0 where it is not. -/
def State.sealedBy (s : State) (a : Nat) : Nat := ((s.regionAt a).map (·.session)).getD 0

/-- Whether a request of a session to a device line is turned away (R454). -/
def State.sealStop (s : State) (a session : Nat) : Bool := decide (s.sealedBy a ≠ 0 ∧ s.sealedBy a ≠ session)

/-! ## Reads and writes of the stacks -/

/-- The 64-byte lines that [a, a + n) touches. -/
def linesIn (a n : Nat) : List Nat := if n = 0 then [] else (List.range ((a + n - 1) / 64 - a / 64 + 1)).map (· + a / 64)
/-- The aligned 256-byte blocks that [a, a + n) touches. -/
def blocksIn (a n : Nat) : List Nat := if n = 0 then [] else (List.range ((a + n - 1) / 256 - a / 256 + 1)).map (· + a / 256)

/-- n added to counter i of port m (R311). -/
def State.portCount (s : State) (m i n : Nat) : State :=
  s.modPort m fun p => { p with cnt := smod 0 p.cnt i (· + BitVec.ofNat 64 n) }

/-- A line read by a port: a corrected one is written back, an uncorrectable one is counted and sends a notice to the die's stewards (R310,
R438). -/
def State.readLine (s : State) (m ln : Nat) : Bool × State :=
  match sget 0 (s.port m).err ln with
  | 1 => (false, (s.portCount m 4 1).modPort m fun p => { p with err := sset 0 p.err ln 0, errAddr := BitVec.ofNat 32 ln })
  | 2 => (true, ((s.portCount m 5 1).modPort m fun p => { p with errAddr := BitVec.ofNat 32 (ln + 2 ^ 31) }).sendNotice (portDie m)
      (.memUe m ln))
  | _ => (false, s)

/-- Lines read by a port: whether one is poisoned. -/
def State.readLines (s : State) (m : Nat) : List Nat → Bool × State
  | [] => (false, s)
  | l :: ls =>
    let (b, s1) := s.readLine m l
    let (b', s2) := s1.readLines m ls
    (b || b', s2)

/-- The bytes of device memory at a port offset. -/
def State.memBytes (s : State) (m poff n : Nat) : List Byte := readBytes s.mem (memKey m poff) n

/-- Bytes written to device memory; lines written whole lose their error (R310). -/
def State.memWrite (s : State) (m poff : Nat) (bs : List Byte) : State :=
  let whole := (linesIn poff bs.length).filter fun l => decide (poff ≤ 64 * l ∧ 64 * l + 64 ≤ poff + bs.length)
  ({ s with mem := writeBytes s.mem (memKey m poff) bs } : State).modPort m fun p =>
    { p with err := whole.foldl (fun e l => sset 0 e l 0) p.err, merge := p.merge.filter fun b => b ∉ blocksIn poff bs.length }

/-- The stack blocks of a read counted: merged ones from live entries, the others from the stack; a block fills an entry where the buffer has
one (R307, R308). -/
def State.readBlocks (s : State) (m poff n : Nat) : State :=
  (blocksIn poff n).foldl (fun s b =>
    let p := s.port m
    if p.mergeEn ∧ b ∈ p.merge then s.portCount m 2 1
    else
      let s1 := s.portCount m 3 256
      if p.mergeEn ∧ p.merge.length < 256 then s1.modPort m fun p => { p with merge := p.merge ++ [b] } else s1) s

/-- A piece of an access that is no request of the queue: its first line, and each line that begins a block, costs a stack block and counts
a request (R307, R311; log 42). -/
def State.costLine (s : State) (a lo m po : Nat) (write : Bool) : State :=
  if lo ≠ a ∧ po % 256 ≠ 0 then s
  else if write then (s.portCount m 1 1).portCount m 3 256
  else (s.portCount m 0 1).readBlocks m po 1

/-- Bytes of device memory at a device address, by 64-byte lines: none where a line is absent, lost, poisoned or sealed from the
session; the reason is 6, 7 or 8 (R303, R310, R454). -/
def State.devRead (s : State) (a n session : Nat) : Nat × List Byte × State :=
  (linesIn a n).foldl (fun (r, bs, s) l =>
    let lo := max a (64 * l)
    let hi := min (a + n) (64 * l + 64)
    if r ≠ 0 then (r, bs, s)
    else match s.mapAddr lo with
      | .inl k => (k, bs, s)
      | .inr (m, po) =>
        if s.sealStop lo session then (8, bs, s)
        else
          let (bad, s1) := (s.costLine a lo m po false).readLine m (po / 64)
          if bad then (8, bs, s1) else (0, bs ++ s1.memBytes m po (hi - lo), s1)) (0, [], s)

/-- Bytes written at a device address, by 64-byte lines: sealed lines of another session are left (R454), absent or lost ones give
their reason. -/
def State.devWrite (s : State) (a : Nat) (bs : List Byte) (session : Nat) : Nat × State :=
  (linesIn a bs.length).foldl (fun (r, s) l =>
    let lo := max a (64 * l)
    let hi := min (a + bs.length) (64 * l + 64)
    match s.mapAddr lo with
    | .inl k => (if r = 0 then k else r, s)
    | .inr (m, po) =>
      if s.sealStop lo session then (r, s) else (r, (s.costLine a lo m po true).memWrite m po ((bs.drop (lo - a)).take (hi - lo)))) (0, s)

/-! ## A port's requests -/

/-- Whether two requests touch a common aligned 256-byte block (R305). -/
def PReq.meets (p q : PReq) : Bool := (blocksIn p.off p.len).any fun b => b ∈ blocksIn q.off q.len

/-- Whether a request came through the host window (R304, R329). -/
def PReq.host (p : PReq) : Bool := decide (p.src = .cxl)

/-- The lines of a request that the host may hold, which it must give up first (R330); its own accesses need none. -/
def Port.heldLines (x : Port) (p : PReq) : List Nat := if p.host then [] else (linesIn p.off p.len).filter fun l => l ∈ x.filter

/-- Whether a read of the host finds the snoop filter full: an entry must go before its line is admitted (R330). -/
def Port.filterFull (x : Port) (p : PReq) : Bool :=
  p.host && !bitOf p.kind 0 && !(linesIn p.off p.len).all (fun l => l ∈ x.filter) && !x.filter.isEmpty
    && decide (Config.filterLines ≤ x.filter.length)

/-- The lines of a host read entered in the filter (R330). -/
def Port.hold_ (x : Port) (p : PReq) : Port :=
  if p.host then { x with filter := x.filter ++ (linesIn p.off p.len).filter fun l => l ∉ x.filter } else x

/-- Whether a read finds room in the merge buffer for the blocks it needs from the stack (R308). -/
def Port.mergeRoom (x : Port) (p : PReq) : Bool :=
  !x.mergeEn || decide (x.merge.length + ((blocksIn p.off p.len).filter fun b => b ∉ x.merge).length ≤ 256)

/-- Whether a request is a write. -/
def PReq.isWrite (p : PReq) : Bool := bitOf p.kind 0

/-- The fault code an answer carries to its requester: a stream's reason, or an engine's or Ethernet port's (Tables 13.4, 15.4). -/
def PReq.code (p : PReq) (reason : Nat) : BitVec 4 :=
  if p.kind.toNat < 2 then BitVec.ofNat 4 reason
  else if reason = 8 then 1
  else if reason = 7 then 4
  else BitVec.ofNat 4 reason

/-- Request p of port m placed in block order: a write takes effect, a read takes its data (R305, R306, R330, R454). -/
def State.placeReq (s : State) (m : Nat) (p : PReq) : PReq × State :=
  if (s.port m).lost || (s.port m).cut then ({ p with placed := some (p.code 7, []) }, s)
  else if p.isWrite then
    let s1 := s.portCount m 3 (256 * (blocksIn p.off p.len).length)
    if s.sealStop p.addr p.session then ({ p with placed := some (0, []) }, s1)
    else ({ p with placed := some (0, []) }, s1.memWrite m p.off p.data)
  else if s.sealStop p.addr p.session then ({ p with placed := some (p.code 8, []) }, s)
  else
    let (bad, s1) := (s.readBlocks m p.off p.len).readLines m (linesIn p.off p.len)
    if bad then ({ p with placed := some (p.code 8, []) }, s1)
    else ({ p with placed := some (0, s1.memBytes m p.off p.len) }, s1.modPort m fun x => x.hold_ p)

/-- The requests of a port placed in turn: each when nothing earlier of its blocks waits, the host has given up what it holds of it, and the
merge buffer and the snoop filter have room (R305, R308, R330). -/
def State.placeAll (m : Nat) : List PReq → List PReq → State → List PReq × State
  | done, [], s => (done, s)
  | done, p :: ps, s =>
    let x := s.port m
    if p.placed.isSome ∨ (done.any fun q => q.placed.isNone && q.meets p) ∨ !(x.heldLines p).isEmpty
        ∨ (!p.isWrite ∧ !x.mergeRoom p) ∨ x.filterFull p then State.placeAll m (done ++ [p]) ps s
    else
      let (q, s1) := s.placeReq m p
      State.placeAll m (done ++ [q]) ps s1

/-- One lost response or write of the host window (R329). -/
def State.hwinErr (s : State) : State := s.modLead fun l => { l with hwinErr := satAdd l.hwinErr 1 }

/-- A host-window read answered with poison (R329). -/
def State.poison (s : State) : State := ({ s with cxl := { s.cxl with data := [], poison := true } } : State).hwinErr

/-- A placed request of the host answered: a read with its data or poison; a write to a sealed or lost line is dropped (R287, R329). -/
def State.answerHost (s : State) (p : PReq) : State :=
  match p.placed with
  | none => s
  | some (f, bs) =>
    if p.isWrite then (if f ≠ 0 ∨ s.sealStop p.addr 0 then s.hwinErr else s)
    else if f ≠ 0 then s.poison
    else { s with cxl := { s.cxl with data := bs, poison := false } }

/-- Host-window requests taken while the controller holds fewer than 1,024 (R304, R311). -/
def State.admitHost (s : State) (m : Nat) : State :=
  let new := (s.port m).hostq.take (1024 - (s.port m).reqs.length)
  new.foldl (fun s p => (s.portCount m (b2n p.isWrite) 1).modPort m fun x => { x with reqs := x.reqs ++ [p], hostq := x.hostq.drop 1 }) s

/-- Everything that can be placed at port m placed; what of it is the host's is answered (R304, R305, R329). -/
def State.place (s : State) (m : Nat) : State :=
  let s0 := s.admitHost m
  let (qs, s1) := State.placeAll m [] (s0.port m).reqs s0
  let ended := fun (p : PReq) => p.host && p.placed.isSome
  (qs.filter ended).foldl State.answerHost (s1.modPort m fun p => { p with reqs := qs.filter fun p => !ended p })

/-- The session of a requester (R454). -/
def State.reqSession (s : State) (src : Node) (id : Nat) : Nat :=
  match src with
  | .core w => (s.core w).t.session
  | .dma e =>
    match (s.engine e).xfers.find? fun x => x.reqs.any fun r => decide (r.id = id) with
    | some x => natOfBytes ((x.cmd.entry.drop 4).take 2)
    | none => 0
  | .eth e =>
    match (s.eth e).flows.find? fun p => (s.eth e).writes.any (fun w => decide (w.id = id ∧ w.flow = p.1))
        || p.2.reads.any fun r => r.wait.any fun w => decide (w.1 = id) with
    | some p => p.2.session
    | none => 0
  | _ => 0

/-- A packet as a request of port m. -/
def State.asReq (s : State) (p : Packet) : Option PReq :=
  let mk := fun (id kind st ep addr len : Nat) (data : List Byte) (off : Nat) =>
    ({ src := p.src, id := id, kind := BitVec.ofNat 2 kind, stream := st, epoch := ep, session := s.reqSession p.src id, addr := addr,
       off := off, len := len, data := data } : PReq)
  let off := fun (a : Nat) => match s.mapAddr a with
    | .inr (_, po) => po
    | .inl _ => 0
  match p.body with
  | .rreq id st ep a n => some (mk id 0 st ep a n [] (off a))
  | .wreq id st ep a bs => some (mk id 1 st ep a bs.length bs (off a))
  | .dread id a n => some (mk id 2 0 0 a n [] (off a))
  | .dwrite id a bs => some (mk id 3 0 0 a bs.length bs (off a))
  | _ => none

/-- The attachment core and number of link k of memory port m: 0 to 15 the outer row, 16 to 31 the outer column (R23). -/
def memLink (m k : Nat) : Nat × Nat :=
  let d := portDie m
  if k < 16 then (dieCore d (portLx0 m + k) (portRow m), 0)
  else
    let w := dieCore d (portCol m) (portLy0 m + (k - 16))
    (w, if (attachment w 1).isSome then 1 else 0)

/-- The answer of a placed request (R306, R309). -/
def PReq.answer (p : PReq) : Body × Nat :=
  let (f, bs) := p.placed.getD (0, [])
  match p.kind.toNat with
  | 0 => (.rrep p.id p.stream p.epoch f bs, max 1 bs.length)
  | 1 => (.wack p.id p.stream p.epoch f, 1)
  | 2 => (.drep p.id f bs, max 1 bs.length)
  | _ => (.dack p.id f, 1)

/-- An answer on its way: straight to an engine beside the port, otherwise over the mesh (R286, R357). -/
def State.reply (s : State) (src dst : Node) (body : Body) (bytes : Nat) : State :=
  match dst with
  | .dma e => if beside e = src then s.modEngine e fun x => x.take (mkPacket src dst false true bytes body)
    else s.fromPort src dst true bytes body
  | _ => s.fromPort src dst true bytes body

/-- PORT_REQUEST_ACCEPT (R292, R304, R305): the oldest request flit on attachment link 0 to 31, or, as link 32, the first request of the
engines beside the port, is taken; with its last flit a request is placed in block order. -/
def execPortRequestAccept (port link : Nat) (s : State) : Out :=
  guard (decide (port < 64 ∧ link ≤ 32))
    (let x := s.port port
     if 1024 ≤ x.reqs.length then s
     else
       let take := fun (s : State) (p : Packet) =>
         match s.asReq p with
         | none => s
         | some q => ((s.portCount port (if q.isWrite then 1 else 0) 1).modPort port fun x => { x with reqs := x.reqs ++ [q] }).place port
       if link = 32 then
         match x.direct with
         | [] => s
         | p :: ps => take (s.modPort port fun x => { x with direct := ps }) p
       else
         let (w, k) := memLink port link
         match sget [] (s.core w).t.router.attOut k with
         | [] => s
         | f :: fs =>
           let s1 := s.modCore w fun c => c.modRouter fun r => { r with attOut := sset [] r.attOut k fs }
           if f.pkt.flits ≤ f.idx + 1 then take s1 f.pkt else s1)

/-- The first placed request of a kind leaves with its answer. -/
def State.answerFirst (s : State) (m : Nat) (write : Bool) : State :=
  match (s.port m).reqs.find? fun p => p.placed.isSome && (p.isWrite == write) with
  | none => s
  | some p =>
    let (b, n) := p.answer
    ((s.modPort m fun x => { x with reqs := x.reqs.erase p }).reply (.mem m) p.src b n).place m

/-- PORT_READ_REPLY (R309). -/
def execPortReadReply (port : Nat) (s : State) : Out := guard (decide (port < 64)) (s.answerFirst port false)
/-- PORT_WRITE_ACK (R306). -/
def execPortWriteAck (port : Nat) (s : State) : Out := guard (decide (port < 64)) (s.answerFirst port true)

/-- MERGE_ENTRY_EXPIRE (R308): an entry that no unanswered read uses stops being live. -/
def execMergeEntryExpire (port block : Nat) (s : State) : Out :=
  guard (decide (port < 64))
    (if (s.port port).reqs.any fun p => !p.isWrite && p.placed.isSome && decide (block ∈ blocksIn p.off p.len) then s
     else (s.modPort port fun x => { x with merge := x.merge.erase block }).place port)

/-- PATROL_SCRUB (R310): the patrol reads its next line. -/
def execPatrolScrub (port : Nat) (s : State) : Out :=
  guard (decide (port < 64))
    (if (s.port port).train ≠ 2 ∨ (s.port port).lost then s
     else (s.readLine port (s.port port).scrub).2.modPort port fun p => { p with scrub := (p.scrub + 1) % 2 ^ 29 })

/-- MP_CNT_CLR (R311): a write of MP_CFG that clears the counters and leaves the settings. -/
def execMpCntClr (port : Nat) (s : State) : Out := guard (decide (port < 64)) (s.modPort port fun p => { p with cnt := [] })

/-! ## The host window -/

/-- Whether line l of a port is to be given up by the host: a request or another access waits for it, or it is the oldest of a full filter that
a read of the host waits for (R330; log 42). -/
def Port.mustSnoop (x : Port) (l : Nat) : Bool :=
  decide (l ∈ x.filter ∧ l ∉ x.snoop)
    && (x.reqs.any (fun p => p.placed.isNone && decide (l ∈ x.heldLines p)) || decide (l ∈ x.wanted)
      || (decide (x.filter.head? = some l) && x.reqs.any fun p => p.placed.isNone && x.filterFull p))

/-- BACK_INVALIDATE (R330): the snoop of a line that the host must give up. The line is port · 2^29 + port line. -/
def execBackInvalidate (line : Nat) (s : State) : Out :=
  let m := line / 2 ^ 29
  let l := line % 2 ^ 29
  guard (decide (m < 64))
    (if (s.port m).mustSnoop l then s.modPort m fun p => { p with snoop := p.snoop ++ [l] } else s)

/-- HOST_SNOOP_RESPONSE (R330): the host gives the line up, with its data if it had changed it; what waited is placed. -/
def execHostSnoopResponse (line : Nat) (data : Option (List Byte)) (s : State) : Out :=
  let m := line / 2 ^ 29
  let l := line % 2 ^ 29
  guard (decide (m < 64))
    (if l ∉ (s.port m).snoop then s
     else
       let s1 := s.modPort m fun p => { p with snoop := p.snoop.erase l, filter := p.filter.erase l, wanted := p.wanted.erase l }
       let s2 := match data with
         | some bs => s1.memWrite m (64 * l) (bs.take 64)
         | none => s1
       s2.place m)

/-- The device address of a host physical address in the host window; none outside it, or with no decoder committed (R329). -/
def State.windowAddr (s : State) (addr : Nat) : Option Nat :=
  match s.cxl.hdm with
  | none => none
  | some (base, size) => if base ≤ addr ∧ addr < base + size then some (addr - base) else none

/-- A request of the host at a device address: answered at once where the CXL port's path is cut or the slice is absent or lost; otherwise
behind the requests that its controller holds (R287, R304, R305, R329). -/
def State.hostAccess (s : State) (a len : Nat) (write : Option (List Byte)) : State :=
  let fail := if write.isSome then s.hwinErr else s.poison
  if s.cxl.cut then fail
  else match s.mapAddr a with
    | .inl _ => fail
    | .inr (m, po) =>
      let p : PReq := { src := .cxl, id := 0, kind := if write.isSome then 3 else 2, stream := 0, epoch := 0, session := 0, addr := a,
                        off := po, len := len, data := write.getD [] }
      (s.modPort m fun x => { x with hostq := x.hostq ++ [p] }).place m

/-- HOST_WINDOW_READ (R287, R329, R330): the 64-byte line at a host physical address, or poison. -/
def execHostWindowRead (addr : Nat) (s : State) : Out :=
  .next (match s.windowAddr addr with
    | none => s
    | some a => s.hostAccess (a / 64 * 64) 64 none)

/-- HOST_WINDOW_WRITE (R287, R329): bytes within one 64-byte line at a host physical address, or a dropped write. -/
def execHostWindowWrite (addr : Nat) (data : List Byte) (s : State) : Out :=
  .next (match s.windowAddr addr with
    | none => s
    | some a => let bs := data.take (64 - a % 64); s.hostAccess a bs.length (some bs))

/-- HDM_DECODER_COMMIT (R327, R329, R467): a range of at most 2 TiB with interleave ways 1, after Memory_Active; the decoder does not accept
other ways. -/
def execHdmDecoderCommit (base : Nat) (r : HdmRange) (s : State) : Out :=
  .next (if s.cxl.memActive && s.cxl.link && s.cxl.hdm.isNone && decide (0 < r.size ∧ r.size ≤ 2 ^ 41 ∧ r.ways = 1) then
      { s with cxl := { s.cxl with hdm := some (base, r.size) } } else s)

/-- HDM_DECODER_UNCOMMIT (R329). -/
def execHdmDecoderUncommit (s : State) : Out := .next { s with cxl := { s.cxl with hdm := none } }

/-! ## Host memory -/

/-- Whether [o, o + n) lies in the host memory window (R331). -/
def State.inWindow (s : State) (o n : Nat) : Bool := decide (o + n ≤ s.lead.winSize.toNat * 2 ^ 20)
/-- The host physical address of an HMEM offset. -/
def State.hostAddr (s : State) (o : Nat) : Nat := s.lead.winBase.toNat + o
/-- Bytes of host memory at an HMEM offset. -/
def State.hostRead (s : State) (o n : Nat) : List Byte := readBytes s.hostMem (s.hostAddr o) n
/-- Bytes written to host memory at an HMEM offset. -/
def State.hostWrite (s : State) (o : Nat) (bs : List Byte) : State := { s with hostMem := writeBytes s.hostMem (s.hostAddr o) bs }

/-- A host-memory access answered (R306, R331): ok false is an error or a timeout. -/
def State.hmemAnswer (s : State) (p : Packet) (ok : Bool) : State :=
  let can := fun (a n : Nat) => ok && s.cxl.link && s.inWindow a n
  match p.body with
  | .rreq id st ep a n =>
    if can a n then s.reply .cxl p.src (.rrep id st ep 0 (s.hostRead a n)) n else s.reply .cxl p.src (.rrep id st ep 9 []) 1
  | .wreq id st ep a bs =>
    if can a bs.length then (s.hostWrite a bs).reply .cxl p.src (.wack id st ep 0) 1 else s.reply .cxl p.src (.wack id st ep 9) 1
  | .dread id a n =>
    if can a n then s.reply .cxl p.src (.drep id 0 (s.hostRead a n)) n else s.reply .cxl p.src (.drep id 6 []) 1
  | .dwrite id a bs =>
    if can a bs.length then (s.hostWrite a bs).reply .cxl p.src (.dack id 0) 1 else s.reply .cxl p.src (.dack id 6) 1
  | _ => s

/-- The oldest host-memory access at the CXL port. -/
def State.takeHmem (s : State) : Option (Packet × State) :=
  match s.cxl.direct with
  | p :: ps => some (p, { s with cxl := { s.cxl with direct := ps } })
  | [] => none

/-- HMEM_ACCESS_COMPLETE (R331): the oldest access of a stream or an engine; where none waits, how the lead's own next access ends (log 41). -/
def execHmemAccessComplete (ok : Bool) (s : State) : Out :=
  .next (match s.takeHmem with
    | none => { s with cxl := { s.cxl with leadFails := !ok } }
    | some (p, s1) => s1.hmemAnswer p (ok && !s.cxl.cut))

/-- Whether the lead's access to host memory through the window succeeds, and the state after the attempt (R287, R331, R355). -/
def State.leadHost (s : State) : Bool × State :=
  (s.cxl.link && !s.cxl.cut && !s.cxl.leadFails, { s with cxl := { s.cxl with leadFails := false } })

/-! ## Lines that the host holds -/

/-- The lines of a device range that the host may hold: port and port line (R330). -/
def State.heldBy (s : State) (a n : Nat) : List (Nat × Nat) :=
  (linesIn a n).filterMap fun l => match s.mapAddr (64 * l) with
    | .inr (m, po) => if po / 64 ∈ (s.port m).filter then some (m, po / 64) else none
    | .inl _ => none

/-- Lines that an access outside a port's queue waits for (R330). -/
def State.want (s : State) (ls : List (Nat × Nat)) : State :=
  ls.foldl (fun s p => s.modPort p.1 fun x => if p.2 ∈ x.wanted then x else { x with wanted := x.wanted ++ [p.2] }) s

/-! ## Streams of a core -/

/-- Where a stream's request at an address goes, and by which order: the port of its device address, the CXL port, or the reason it
fails at once (R287, R302, R315, R331). -/
def State.resolve (s : State) (w : Nat) (cm : Cap) (a : Nat) : Nat ⊕ (Node × Nat × Bool) :=
  let reach := fun (n : Node) =>
    let (b, _, v) := joinOf n w
    if s.routeOk w b (orderToPort v) then Sum.inr (n, a, orderToPort v)
    else if s.routeOk w b (!orderToPort v) then .inr (n, a, !orderToPort v)
    else .inl 7
  if cm.kind = 6 then (if s.cxl.cut then .inl 9 else reach .cxl)
  else match s.mapAddr a with
    | .inl k => .inl k
    | .inr (m, _) => reach (.mem m)

end Sys2Proof.Machine
end

