-- ==== Sys2Proof/Machine/Admit.lean ====
section
/-! DEFINITION. Submission entries and the checks of admission, in the order of R338, with each command's own conditions (R301, R337
to R339, R350 to R352, R358 to R360, R373, R374, R383, R389, R416, R428, R459, R460, R471 to R473). -/
namespace Sys2Proof.Machine

/-! ## Fields of an entry -/

/-- The n-byte field of an entry at byte lo. -/
def Cmd.n (c : Cmd) (lo n : Nat) : Nat := natOfBytes ((c.entry.drop lo).take n)
/-- OPCODE (Table 14.2). -/
def Cmd.opcode (c : Cmd) : Nat := c.n 0 1
/-- FENCE. -/
def Cmd.fence (c : Cmd) : Bool := decide (c.n 1 1 % 2 = 1)
/-- TAG. -/
def Cmd.tag (c : Cmd) : Nat := c.n 2 2
/-- SESSION. -/
def Cmd.session (c : Cmd) : Nat := c.n 4 2

/-- The first byte from lo on, of n, that is not zero. -/
def Cmd.nz (c : Cmd) (lo n : Nat) : Option Nat := (List.range n).findSome? fun i => if c.n (lo + i) 1 = 0 then none else some (lo + i)
/-- The offset of the first condition that holds. -/
def firstBad (l : List (Bool × Nat)) : Option Nat := l.findSome? fun p => if p.1 then some p.2 else none
/-- The first defined of some options. -/
def firstOpt (l : List (Option α)) : Option α := l.findSome? id

/-- Whether a 32-bit word is a logical core word within R20. -/
def coordOk (x : Nat) : Bool := coreOk (x % 2 ^ 18)

/-! ## DMA sides -/

/-- A side of a DMA command (Table 15.1): address offset in the entry, space, fixed. -/
structure Side where
  at_ : Nat
  space : Nat
  fixed : Bool

/-- The source, or side A. -/
def Cmd.src (c : Cmd) : Side := ⟨8, c.n 40 4 % 4, decide (c.n 40 4 / 16 % 2 = 1)⟩
/-- The destination, or side B. -/
def Cmd.dst (c : Cmd) : Side := ⟨16, c.n 40 4 / 4 % 4, decide (c.n 40 4 / 32 % 2 = 1)⟩
/-- LENGTH of a DMA command. -/
def Cmd.length (c : Cmd) : Nat := c.n 24 8
/-- 2^BLK_LOG. -/
def Cmd.blk (c : Cmd) : Nat := 2 ^ (c.n 40 4 / 64 % 16)
/-- The sides that a DMA command uses: FILL has a destination only. -/
def Cmd.sides (c : Cmd) : List Side := if c.opcode = 7 then [c.dst] else [c.src, c.dst]
/-- The address of a side within its space. -/
def Cmd.addr (c : Cmd) (x : Side) : Nat := if x.space = 2 then c.n x.at_ 8 % 2 ^ 17 else c.n x.at_ 8
/-- The core of a scratchpad side. -/
def Cmd.core (c : Cmd) (x : Side) : Nat := c.n x.at_ 8 / 2 ^ 32 % 2 ^ 18
/-- The bytes of a side's range: its block for a fixed side (R360). -/
def Cmd.span (c : Cmd) (x : Side) : Nat := if x.fixed then c.blk else c.length

/-- The bits of an address that its space does not use are zero (Table 15.2). -/
def Cmd.addrBits (c : Cmd) (x : Side) : Bool :=
  let a := c.n x.at_ 8
  match x.space with
  | 0 => decide (a < 2 ^ 41)
  | 1 => decide (a < 2 ^ 48)
  | 2 => decide (a % 2 ^ 32 < 2 ^ 17 ∧ a / 2 ^ 32 < 2 ^ 18)
  | _ => false

/-- Whether the two sides touch a common byte of one space. -/
def Cmd.sidesMeet (c : Cmd) : Bool :=
  let a := c.src
  let b := c.dst
  decide (a.space = b.space) && (decide (a.space ≠ 2) || decide (c.core a = c.core b))
    && decide (c.addr a < c.addr b + c.span b ∧ c.addr b < c.addr a + c.span a)

/-- BAD_FIELD of a DMA command (R360, step 1). -/
def Cmd.dmaField (c : Cmd) : Option Nat :=
  let fill := decide (c.opcode = 7)
  let anyFixed := c.sides.any (·.fixed)
  let log := c.n 40 4 / 64 % 16
  let dstSpad := decide (c.dst.space = 2 ∧ c.opcode ≠ 8)
  firstOpt [
    if fill then c.nz 8 8 else c.nz 32 8,
    firstBad ([(fill && decide (c.n 40 4 % 4 ≠ 0 ∨ c.n 40 4 / 16 % 2 ≠ 0), 40), (decide (2 ^ 10 ≤ c.n 40 4), 40)]
      ++ c.sides.map (fun x => (decide (x.space = 3), 40)) ++ c.sides.map (fun x => (!c.addrBits x, x.at_))
      ++ [(if anyFixed then decide (log < 6 ∨ 12 < log) else decide (log ≠ 0), 40)]
      ++ c.sides.map (fun x => (x.fixed && decide (c.addr x % c.blk ≠ 0), x.at_))
      ++ [(anyFixed && decide (c.length % c.blk ≠ 0), 24), (dstSpad && decide (c.addr c.dst % 8 ≠ 0), 16),
        (dstSpad && decide (c.length % 8 ≠ 0), 24), (!fill && c.sidesMeet, 16)]),
    c.nz 44 20]

/-- The ports that a device range touches, or the failure of its first failing slice: 6 UNMAPPED, 7 UNAVAILABLE (R303, R360). -/
def State.rangeFault (s : State) (a n : Nat) : Option Nat :=
  let segs := if n = 0 then [] else (List.range ((a + n - 1) / 2 ^ 35 - a / 2 ^ 35 + 1)).map (· + a / 2 ^ 35)
  let absent := segs.any fun m => decide (64 ≤ m) || s.lead.absent.getLsbD m
  let lost := segs.any fun m =>
    let lo := max a (m * 2 ^ 35)
    let hi := min (a + n) ((m + 1) * 2 ^ 35)
    let units := (hi - 1) / 4096 - lo / 4096 + 1
    (List.range (min units 64)).any fun i => match s.mapAddr (max lo (4096 * (lo / 4096 + i))) with
      | .inl 7 => true
      | _ => false
  if absent then some 6 else if lost then some 7 else none

/-- Whether a device range touches a sealed region for which p holds. -/
def State.touches (s : State) (a n : Nat) (p : Region → Bool) : Bool :=
  s.lead.regions.any fun r => decide (a < r.base + r.len ∧ r.base < a + n) && p r
/-- Whether a device range lies within one sealed region of a session. -/
def State.inRegion (s : State) (a n session : Nat) : Bool :=
  s.lead.regions.any fun r => decide (r.session = session ∧ r.base ≤ a ∧ a + n ≤ r.base + r.len)

/-- AUTH codes 2 and 3 of a DMA command (Table 19.8). -/
def State.dmaAuth (s : State) (c : Cmd) : Option Nat :=
  let dev := fun (x : Side) (p : Region → Bool) => decide (x.space = 0) && s.touches (c.addr x) (c.span x) p
  let any := fun (_ : Region) => true
  if c.sides.any fun x => dev x fun r => decide (r.session ≠ c.session) then some 2
  else if c.opcode = 6 then
    (if dev c.src any && !(decide (c.dst.space = 0) && s.inRegion (c.addr c.dst) (c.span c.dst) c.session) then some 3 else none)
  else if c.opcode = 8 then (if c.sides.any fun x => dev x any then some 3 else none)
  else none

/-- The engines that may take a command (R362). -/
def State.engineChoices (s : State) (c : Cmd) : List Nat :=
  if c.sides.any fun x => decide (x.space = 1) then (List.range 8).map (50 + ·)
  else
    let x := c.dst
    let d := if x.space = 2 then dieOf (c.core x) else match s.mapAddr (c.addr x) with
      | .inr (m, _) => portDie m
      | .inl _ => 0
    [engineNo d 0, engineNo d 1]

/-- The engine with the fewest transfers, the lower number among equals (R362). -/
def State.engineFor (s : State) (c : Cmd) : Nat :=
  match s.engineChoices c with
  | [] => 0
  | e :: es => es.foldl (fun b e => if (s.engine e).xfers.length < (s.engine b).xfers.length then e else b) e

/-- Whether the port beside an engine has no mesh path (R287, R357). -/
def State.besideCut (s : State) (e : Nat) : Bool :=
  match beside e with
  | .mem m => (s.port m).cut
  | _ => s.cxl.cut

/-- Whether an engine cannot reach a core: the attachment that it shares with the port beside it is lost, or both routes are (R287). -/
def State.cutOff (s : State) (e w : Nat) : Bool :=
  let (a, _, v) := joinOf (.dma e) w
  s.besideCut e || !s.routeOk a w (orderFromPort v) && !s.routeOk a w (!orderFromPort v)

/-- UNMAPPED, UNAVAILABLE or BAD_STATE of a DMA command (R360, steps 4 to 6). -/
def State.dmaOwn (s : State) (c : Cmd) : Option (Nat × Nat) :=
  let dev := c.sides.filterMap fun x => if x.space = 0 then (s.rangeFault (c.addr x) (c.span x)).map fun k => (k, x.at_) else none
  match dev.find? fun p => decide (p.1 = 6) with
  | some p => some (0x09, p.2)
  | none =>
    match dev.find? fun p => decide (p.1 = 7) with
    | some p => some (0x0A, p.2)
    | none =>
      let bad := fun (x : Side) =>
        let g := s.grove (groveOf (c.core x))
        decide (x.space = 2) && (decide (g.state = 6 ∨ g.state = 0 ∨ g.state = 4) || g.fence || s.cutOff (s.engineFor c) (c.core x))
      (c.sides.find? bad).map fun x => (0x05, x.at_)

/-- LENGTH_BOUND of a DMA command (R360, step 3). -/
def State.dmaLength (s : State) (c : Cmd) : Option Nat :=
  let past := fun (x : Side) => match x.space with
    | 0 => decide (2 ^ 41 < c.addr x + c.span x)
    | 1 => !s.inWindow (c.addr x) (c.span x)
    | _ => decide (2 ^ 17 < c.addr x + c.span x)
  if c.length = 0 then some 24 else if c.sides.any past then some 24 else none

/-! ## BAD_FIELD -/

/-- A KIND and TARGET outside Table 14.10: 4 for the target's word, 8 for the KIND's. -/
def targetBad (target kind : Nat) : Option Nat :=
  match kind with
  | 1 => if 64 ≤ target then some 0 else none
  | 2 => if 512 ≤ target ∨ 25 ≤ target % 32 ∨ (if target % 32 = 2 then 10 else 2) ≤ target / 32 then some 0 else none
  | _ => if 2 ^ 18 ≤ target then some 0 else none

/-- BAD_FIELD of FLOW_OPEN (Table 16.1). -/
def Cmd.flowField (c : Cmd) : Option Nat :=
  let b8 := c.n 8 1
  match b8 % 4 with
  | 0 => firstOpt [firstBad [(decide (32 ≤ b8), 8)], c.nz 9 1,
      firstBad [(decide (3 ≤ c.n 10 1), 10), (decide (c.n 11 1 < 10 ∨ 24 < c.n 11 1), 11)], c.nz 12 24, c.nz 42 2]
  | 1 => firstOpt [firstBad [(decide (64 ≤ b8), 8)], c.nz 10 2,
      firstBad [(decide (c.n 12 2 = 0), 12), (decide (c.n 14 1 < 2 ∨ 16 < c.n 14 1), 14)], c.nz 15 1,
      firstBad [(decide (2 ^ 41 ≤ c.n 16 8 ∨ c.n 16 8 % 64 ≠ 0), 16), (decide (2 ^ 41 ≤ c.n 24 8 ∨ c.n 24 8 % 4096 ≠ 0), 24)],
      c.nz 42 2, c.nz 60 4]
  | 2 => firstOpt [firstBad [(decide (32 ≤ b8), 8), (decide (16 ≤ c.n 9 1), 9)], c.nz 10 6,
      firstBad [(decide (2 ^ 48 ≤ c.n 16 8), 16)], c.nz 24 40]
  | _ => some 8

/-- BAD_FIELD of FRAME_OPEN (R383, Table 16.4). -/
def Cmd.frameField (c : Cmd) : Option Nat :=
  let depth := c.n 10 1
  let pipe := c.n 11 1 / 2
  firstOpt [firstBad [(decide (128 ≤ c.n 8 1), 8), (decide (depth = 0 ∨ 16 < depth), 10), (decide (pipe = 0 ∨ depth < pipe), 11),
      (decide (64 ≤ c.n 13 1), 13), (decide (2 ^ 12 ≤ c.n 14 2), 14), (decide (2 ^ 41 ≤ c.n 16 8 ∨ c.n 16 8 % 4096 ≠ 0), 16),
      (decide (2 ^ 18 ≤ c.n 32 4), 32), (decide (32 ≤ c.n 36 1), 36), (decide (14 < popcount 16 (c.n 38 2)), 38)],
    c.nz 37 1, c.nz 40 24]

/-- BAD_FIELD of SESSION (Table 19.9). -/
def Cmd.sessionField (c : Cmd) : Option Nat :=
  let op := c.n 8 1
  firstOpt [firstBad [(decide (5 < op), 8), (decide (op = 0 ∧ c.session ≠ 0), 4)], c.nz 9 7,
    if op = 4 then c.nz 16 8 else none,
    firstBad [(decide ((op = 0 ∨ op = 2) ∧ 2 ^ 48 ≤ c.n 16 8), 16),
      (decide ((op = 1 ∨ op = 3 ∨ op = 5) ∧ 2 ^ 41 ≤ c.n 16 8), 16), (decide (op = 1 ∧ c.n 16 8 % 4096 ≠ 0), 16),
      (decide (op = 0 ∧ c.n 24 8 ≠ 51200), 24), (decide (op = 3 ∧ c.n 24 8 % 8 ≠ 0), 24)],
    if op = 4 ∨ op = 5 then c.nz 24 8 else none,
    if op = 3 then firstBad [(decide (2 ^ 48 ≤ c.n 32 8), 32)] else c.nz 32 8,
    c.nz 40 24]

/-- BAD_FIELD of FW_LOAD (Table 20.3). -/
def Cmd.fwField (c : Cmd) : Option Nat :=
  let op := c.n 20 1
  let len := c.n 16 4
  firstOpt [firstBad [(decide (1 < op), 20)],
    if op = 0 then firstBad [(decide (2 ^ 48 ≤ c.n 8 8 ∨ c.n 8 8 % 4 ≠ 0), 8), (decide (len % 4 ≠ 0), 16), (decide (c.n 21 1 ≠ 0), 21)]
    else firstOpt [c.nz 8 12, firstBad [(decide (c.n 21 1 < 2 ∨ 4 < c.n 21 1), 21)]],
    c.nz 22 42]

/-- Check 2 of R338: the byte offset of the failing field. -/
def Cmd.badField (c : Cmd) : Option Nat :=
  firstOpt [firstBad [(decide (2 ≤ c.n 1 1), 1)], c.nz 6 2,
    match c.opcode with
    | 0x00 => c.nz 8 56
    | 0x01 => c.nz 24 40
    | 0x02 => firstOpt [firstBad [(decide (c.n 8 8 % 4 ≠ 0), 8), (decide (c.n 16 4 % 4 ≠ 0), 16)], c.nz 20 44]
    | 0x03 => firstOpt [firstBad [((targetBad (c.n 8 4) (c.n 12 4 % 4)).isSome, 8), (decide (c.n 12 4 % 4 = 3), 12),
        (decide (c.n 16 8 % 4 ≠ 0), 16)], c.nz 24 40]
    | 0x04 => firstOpt [firstBad [(decide (2 ^ 12 ≤ c.n 8 2), 8)], c.nz 10 2,
        firstBad [(decide (2 ^ 18 ≤ c.n 12 4), 12), (decide (2 ^ 18 ≤ c.n 16 4), 16)], c.nz 20 4,
        firstBad [(decide (c.n 24 8 % 4 ≠ 0), 24), (decide (c.n 32 4 % 4 ≠ 0), 32)], c.nz 36 28]
    | 0x05 => firstOpt [firstBad [(decide (2 ^ 12 ≤ c.n 8 2), 8), (decide (3 < c.n 10 1), 10)], c.nz 11 53]
    | 0x06 => c.dmaField
    | 0x07 => c.dmaField
    | 0x08 => c.dmaField
    | 0x09 => c.frameField
    | 0x0A => firstOpt [firstBad [(decide (128 ≤ c.n 8 1), 8)], c.nz 9 55]
    | 0x0B => c.flowField
    | 0x0C => firstOpt [firstBad [(decide (32 ≤ c.n 8 1 ∨ c.n 8 1 % 4 ≠ 0), 8)], c.nz 10 54]
    | 0x0D => firstOpt [firstBad [(decide (2 ^ 10 ≤ c.n 8 4), 8), (decide (16 ≤ c.n 12 1 ∨ 3 < c.n 12 1 % 8), 12), (decide (64 < c.n 13 1), 13)],
        c.nz 14 2, firstBad [(decide (2 ^ 48 ≤ c.n 16 8 ∨ c.n 16 8 % 8 ≠ 0), 16)], c.nz 24 40]
    | 0x0E => c.fwField
    | 0x0F => firstOpt [firstBad [(decide (2 ^ 48 ≤ c.n 8 8 ∨ c.n 8 8 % 4 ≠ 0), 8), (decide (c.n 16 4 % 4 ≠ 0), 16),
        (decide (2 ^ 25 ≤ c.n 20 4 ∨ c.n 20 4 = 0), 20)], c.nz 24 40]
    | _ => c.sessionField]

/-! ## AUTH -/

/-- The sessions that the bound cores of a grove belong to, other than one. -/
def State.otherBound (s : State) (ws : List Nat) (session : Nat) : Bool :=
  ws.any fun w => decide ((s.core w).t.session ≠ 0 ∧ (s.core w).t.session ≠ session)

/-- Check 3 of R338: the code of Table 19.8. -/
def State.authFail (s : State) (c : Cmd) : Option Nat :=
  let sess := c.session
  let named := match s.session sess with
    | some x => !x.closing
    | none => false
  if (sess ≠ 0 ∨ (c.opcode = 0x10 ∧ c.n 8 1 ≠ 0)) ∧ !named then some 1
  else match c.opcode with
    | 0x02 => if sess ≠ 0 ∧ !s.inRegion (c.n 8 8) (c.n 16 4) sess then some 8 else none
    | 0x03 =>
      let w := c.n 8 4
      let off := c.n 12 2 / 4 * 4
      if c.n 12 4 % 4 = 0 ∧ coordOk w ∧ (s.core w).t.session ≠ 0 ∧ !s.dbgGrant w ∧
          ((List.range (c.n 14 2)).any fun i => !(trunkHeld (off + 4 * i) || decide (off + 4 * i = 0xDC0))) then some 4 else none
    | 0x04 =>
      if coordOk (c.n 12 4) ∧ coordOk (c.n 16 4) ∧ s.otherBound (rectCores (rectOf (c.n 12 4) (c.n 16 4))) sess then some 4
      else if sess ≠ 0 ∧ !s.inRegion (c.n 24 8) (c.n 32 4) sess then some 8
      else none
    | 0x06 => s.dmaAuth c
    | 0x07 => s.dmaAuth c
    | 0x08 => s.dmaAuth c
    | 0x09 => if s.touches (c.n 16 8) (4096 * c.n 24 4 * c.n 10 1) (fun r => decide (r.session ≠ sess)) then some 9 else none
    | 0x0B =>
      if c.n 8 1 % 4 = 1 ∧ (s.touches (c.n 16 8) (16 * 2 ^ c.n 14 1) (fun r => decide (r.session ≠ sess))
          ∨ s.touches (c.n 24 8) (4096 * c.n 32 4) (fun r => decide (r.session ≠ sess))) then some 9 else none
    | 0x0D => if c.n 8 4 < 750 ∧ s.otherBound (groveCores (c.n 8 4)) sess then some 4 else none
    | 0x10 => if c.n 8 1 = 3 ∧ !s.inRegion (c.n 16 8) (c.n 24 8) sess then some 8 else none
    | _ => none

/-! ## COORD_RANGE, LENGTH_BOUND -/

/-- Check 4 of R338. -/
def Cmd.coordBad (c : Cmd) : Option Nat :=
  match c.opcode with
  | 0x03 => firstBad [(decide (c.n 12 4 % 4 = 0) && !coordOk (c.n 8 4), 8)]
  | 0x04 => firstBad [(!coordOk (c.n 12 4), 12), (!coordOk (c.n 16 4), 16)]
  | 0x09 => firstBad [(!coordOk (c.n 32 4), 32)]
  | 0x0D => firstBad [(decide (750 ≤ c.n 8 4), 8)]
  | 0x06 => firstBad (c.sides.map fun x => (decide (x.space = 2) && !coreOk (c.core x), x.at_))
  | 0x07 => firstBad (c.sides.map fun x => (decide (x.space = 2) && !coreOk (c.core x), x.at_))
  | 0x08 => firstBad (c.sides.map fun x => (decide (x.space = 2) && !coreOk (c.core x), x.at_))
  | _ => none

/-- Check 5 of R338 (R339). -/
def State.lengthBad (s : State) (c : Cmd) : Option Nat :=
  match c.opcode with
  | 0x02 => firstBad [(decide (c.n 16 4 = 0), 16), (decide (c.session = 0) && !s.inWindow (c.n 8 8) (c.n 16 4), 16)]
  | 0x03 => firstBad [(decide (c.n 14 2 = 0), 14), (decide (2 ^ 16 < c.n 12 2 / 4 * 4 + 4 * c.n 14 2), 14),
      (!s.inWindow (c.n 16 8) (4 * c.n 14 2), 14)]
  | 0x04 => firstBad [(decide (c.n 32 4 = 0), 32), (decide (c.session = 0) && !s.inWindow (c.n 24 8) (c.n 32 4), 32)]
  | 0x06 => s.dmaLength c
  | 0x07 => s.dmaLength c
  | 0x08 => s.dmaLength c
  | 0x09 => firstBad [(decide (c.n 24 4 = 0 ∨ 2 ^ 41 < c.n 16 8 + 4096 * c.n 24 4 * c.n 10 1), 24),
      (decide (c.n 28 4 = 0 ∨ 4096 * c.n 24 4 < c.n 28 4), 28)]
  | 0x0B =>
    match c.n 8 1 % 4 with
    | 1 => firstBad [(decide (2 ^ 41 < c.n 16 8 + 16 * 2 ^ c.n 14 1), 16), (decide (2 ^ 41 < c.n 24 8 + 4096 * c.n 32 4), 32)]
    | 2 => firstBad [(!s.inWindow (c.n 16 8) 256, 16)]
    | _ => none
  | 0x0D => firstBad [(decide (8 ≤ c.n 12 1) && !s.inWindow (c.n 16 8) 256, 16)]
  | 0x0E => firstBad [(decide (c.n 20 1 = 0) && (decide (c.n 16 4 = 0 ∨ 2 ^ 20 < c.n 16 4) || !s.inWindow (c.n 8 8) (c.n 16 4)), 16)]
  | 0x0F => firstBad [(decide (c.n 16 4 = 0 ∨ 2 ^ 20 < c.n 16 4) || !s.inWindow (c.n 8 8) (c.n 16 4), 16)]
  | 0x10 =>
    match c.n 8 1 with
    | 0 => firstBad [(!s.inWindow (c.n 16 8) 51200, 24)]
    | 1 => firstBad [(decide (c.n 24 8 = 0 ∨ 2 ^ 29 < c.n 24 8 ∨ 2 ^ 41 < c.n 16 8 + 4096 * c.n 24 8), 24)]
    | 2 => firstBad [(decide (c.n 24 8 < 88) || !s.inWindow (c.n 16 8) (c.n 24 8), 24)]
    | 3 => firstBad [(decide (c.n 24 8 = 0 ∨ 2 ^ 32 < c.n 24 8), 24), (!s.inWindow (c.n 32 8) (80 + c.n 24 8), 32)]
    | _ => none
  | _ => none

/-! ## The module's state and resources -/

/-- Whether a stream of some core satisfies p. -/
def State.anyStream (s : State) (p : Stream → Bool) : Bool := s.cores.any fun x => x.2.f.str.any fun y => p y.2

/-- Whether a DMA command is in flight. -/
def State.dmaBusy (s : State) (p : Cmd → Bool) : Bool := s.engines.any fun e => e.2.xfers.any fun x => p x.cmd

/-- A thread enabled in a grove (Table 18.2). -/
def State.groveThreads (s : State) (g : Nat) : Bool := (groveCores g).any fun w => decide ((s.core w).f.tc.en ≠ 0)

/-- Whether a DMA command addresses the scratchpad of a core of a grove. -/
def Cmd.inGrove (c : Cmd) (g : Nat) : Bool := c.sides.any fun x => decide (x.space = 2 ∧ groveOf (c.core x) = g)

/-- The refusal code of GROVE_SERVICE (Table 18.2). -/
def State.serviceBad (s : State) (c : Cmd) : Option Nat :=
  let g := c.n 8 4
  let op := c.n 12 1 % 8
  let x := s.grove g
  let fencing := decide (op = 0 ∨ op = 3)
  if fencing && s.loadedStands.any fun n => rectInGrove (s.stand n).rect g then some 1
  else if fencing && s.groveThreads g then some 2
  else if fencing && ((groveCores g).any (fun w => (s.core w).f.str.any fun y => decide (y.2.st ≠ 0)) || s.dmaBusy (fun c => c.inGrove g)) then some 3
  else if x.state = 0 ∨ x.state = 6 ∨ x.state = 3 ∨ x.state = 4 then some 4
  else if (op = 1 ∨ op = 2) ∧ !x.fence then some 5
  else if op = 2 ∧ !x.tested then some 6
  else none

/-- The port, flow and stream numbers of the network commands. -/
def Cmd.port (c : Cmd) : Nat := c.n 8 1 / 4 % 8

/-- BAD_STATE of FLOW_OPEN (R373). -/
def State.flowOpenBad (s : State) (c : Cmd) : Bool :=
  let x := s.eth c.port
  match c.n 8 1 % 4 with
  | 0 => x.cut || x.flows.any fun p => p.2.open_
  | 1 =>
    let f := sget {} x.flows (c.n 9 1)
    decide (x.rate = 0) || x.cut || f.open_ || f.peerClosed
      || x.flows.any (fun p => (p.2.open_ || p.2.peerClosed) && decide (p.2.udp = c.n 12 2)) || decide (c.session = 0)
      || (s.rangeFault (c.n 16 8) (16 * 2 ^ c.n 14 1)).isSome || (s.rangeFault (c.n 24 8) (4096 * c.n 32 4)).isSome
  | _ => false

/-- BAD_STATE of FRAME_OPEN (R383). -/
def State.frameOpenBad (s : State) (c : Cmd) : Bool :=
  let x := s.eth (c.n 8 1 % 8)
  let st := c.n 8 1 / 8 % 16
  !(sget {} x.flows (c.n 9 1)).open_ || x.streams.any (fun p => p.2.open_ && decide (p.2.flow = c.n 9 1)) || (sget {} x.streams st).open_
    || !(s.pair (c.n 13 1)).cq.en || !(s.stand (c.n 14 2)).loaded
    || (s.rangeFault (c.n 16 8) (4096 * c.n 24 4 * c.n 10 1)).isSome

/-- BAD_STATE of SESSION (R448, R460). -/
def State.sessionBad (s : State) (c : Cmd) : Bool :=
  let a := c.n 16 8
  let n := 4096 * c.n 24 8
  let op := c.n 8 1
  if op = 0 then s.lead.idDone
  else if s.lead.state ≠ 2 then true
  else match op with
    | 1 => decide (64 ≤ s.lead.regions.length) || s.touches a n (fun _ => true) || (s.rangeFault a n).isSome
        || s.anyStream (fun x => decide (x.st ≠ 0 ∧ x.cm.kind = 5 ∧ x.cm.ubase < a + n ∧ a < x.cm.ubase + x.cm.len))
        || s.dmaBusy (fun c => c.sides.any fun x => decide (x.space = 0 ∧ c.addr x < a + n ∧ a < c.addr x + c.span x))
    | 5 => s.loadedStands.any fun n => decide ((s.stand n).session = c.session) && (s.stand n).run
    | _ => false

/-- BAD_STATE of FW_LOAD and FW_UPDATE (R416, R472, R473). -/
def State.fwBad (s : State) (c : Cmd) : Bool :=
  let l := s.lead
  if c.opcode = 0x0F then
    decide (l.state ≠ 2) || l.fw.isSome || l.leadAlt || (List.range 25).any fun d => (c.n 20 4).testBit d && (!s.dieUp d || (s.die d).stewLost)
  else if c.n 20 1 = 0 then l.fwValid || l.fw.isSome
  else
    let t := c.n 21 1
    decide (l.state < 2) || decide (t = l.state.toNat) || (decide (3 ≤ t) && !l.sessions.isEmpty)
      || (decide (t = 2) && s.anyStream fun x => x.resumable && decide (x.st ≠ 0))

/-- The commands that the Thyme personality admits (Table 20.1). -/
def Cmd.inThyme (c : Cmd) : Bool :=
  match c.opcode with
  | 0x00 => true | 0x03 => true | 0x06 => true | 0x07 => true | 0x08 => true | 0x0D => true
  | 0x0E => decide (c.n 20 1 = 0)
  | 0x10 => decide (c.n 8 1 = 0)
  | _ => false

/-- Check 6 of R338: the status and DETAIL of a command that the module's state or resources do not permit. -/
def State.ownFail (s : State) (c : Cmd) : Option (Nat × Nat) :=
  let bad := fun (b : Bool) => if b then some (0x05, 0) else none
  if s.lead.state = 0 ∨ (s.lead.state = 1 ∧ !c.inThyme) then some (0x05, 0)
  else match c.opcode with
    | 0x01 => bad (s.anyStream (fun x => decide (x.st ≠ 0)) || s.dmaBusy (fun _ => true) || s.cxl.hdm.isSome
        || decide (s.lead.failed &&& ~~~(BitVec.ofNat 64 (c.n 16 8)) ≠ 0))
    | 0x04 =>
      let r := rectOf (c.n 12 4) (c.n 16 4)
      if s.loadedStands.any (fun n => decide (n ≠ c.n 8 2) && rectsMeet r (s.stand n).rect)
          || (s.groves.any fun p => p.2.unavail && rectInGrove r p.1) then some (0x08, 0) else none
    | 0x05 =>
      let n := c.n 8 2
      bad (!(s.stand n).loaded || (decide (c.n 10 1 = 0) && s.standFenced n)
        || (decide (c.n 10 1 = 3) && (rectCores (s.stand n).rect).any fun w => (s.core w).f.st.run))
    | 0x06 => s.dmaOwn c
    | 0x07 => s.dmaOwn c
    | 0x08 => s.dmaOwn c
    | 0x09 => bad (s.frameOpenBad c)
    | 0x0A => bad (!(sget {} (s.eth (c.n 8 1 % 8)).streams (c.n 8 1 / 8 % 16)).open_)
    | 0x0B => bad (s.flowOpenBad c)
    | 0x0C =>
      bad ((s.eth c.port).streams.any fun p => p.2.open_ && decide (p.2.flow = c.n 9 1))
    | 0x0D =>
      if c.n 13 1 ≠ 0 ∧ !s.lead.fwValid then some (0x05, 0) else (s.serviceBad c).map fun k => (0x05, k)
    | 0x0E => bad (s.fwBad c)
    | 0x0F => bad (s.fwBad c)
    | 0x10 => bad (s.sessionBad c)
    | _ => none

/-- The admission checks of R338 in order: the status and DETAIL of the first that fails. -/
def State.checkCmd (s : State) (c : Cmd) : Option (Nat × Nat) :=
  if 0x10 < c.opcode then some (0x03, 0)
  else match c.badField with
    | some o => some (0x04, o)
    | none => match s.authFail c with
      | some k => some (0x06, k)
      | none => match c.coordBad with
        | some o => some (0x02, o)
        | none => match s.lengthBad c with
          | some o => some (0x01, o)
          | none => s.ownFail c

end Sys2Proof.Machine
end

