-- ==== Sys2Proof/Machine/Rings.lean ====
section
/-! DEFINITION. BAR0, the submission and record rings, events, admission and completion (R333 to R347, R354, R496). -/
namespace Sys2Proof.Machine

/-! ## Record rings -/

/-- Ring r: 0 to 63 the completion rings, 64 the event ring, 65 the debug ring. -/
def State.ring (s : State) (r : Nat) : Ring := if r = 64 then s.events else if r = 65 then s.debug else (s.pair r).cq
/-- The state with f applied to ring r. -/
def State.modRing (s : State) (r : Nat) (f : Ring → Ring) : State :=
  if r = 64 then { s with events := f s.events }
  else if r = 65 then { s with debug := f s.debug }
  else s.modPair r fun p => { p with cq := f p.cq }

/-- Entries of a ring. -/
def Ring.size (x : Ring) : Nat := 2 ^ x.log.toNat

/-- The ring past n entries written at its tail. -/
def Ring.push (x : Ring) (n : Nat) : Ring :=
  let t := x.tail + n
  if x.size ≤ t then { x with tail := 0, phase := !x.phase, used := x.used + n } else { x with tail := t, used := x.used + n }

/-- The entries of the pad before a record of n entries (R341). -/
def Ring.pad (x : Ring) (n : Nat) : Nat := if x.tail + n ≤ x.size then 0 else x.size - x.tail

/-- Whether a record of n entries can be written now, its pad counted (R341). -/
def Ring.fits (x : Ring) (n : Nat) : Bool := decide (x.used + x.pad n + n ≤ x.size)

/-- Whether records of some lengths can all be written now, one after another (R345). -/
def Ring.fitsAll : List Nat → Ring → Bool
  | [], _ => true
  | n :: ns, x => x.fits n && Ring.fitsAll ns ((if x.pad n = 0 then x else x.push (x.pad n)).push n)

/-- Whether a record of the ring waits for room (R336, R343). -/
def Ring.waits (x : Ring) : Bool :=
  match x.wait with
  | r :: _ => !x.en || !x.fits r.len
  | [] => false

/-- Bytes 0 to 7 of a record (Table 14.3). -/
def State.header (s : State) (r : Nat) (x : Ring) (c : Rec) : List Byte :=
  le 4 (b2n x.phase + 2 * c.len + 2 ^ 8 * c.type + 2 ^ 16 * c.tag)
    ++ le 4 (c.status + 2 ^ 8 * (if r < 64 then r else 0xFF) + 2 ^ 16 * (if r < 64 then (s.pair r).head else 0))

/-- A pad record of n entries: TYPE PAD, LEN and the phase, the other bits of bytes 0 to 7 zero (R341, Table 14.12). -/
def padRec (phase : Bool) (n : Nat) : List Byte := le 4 (b2n phase + 2 * n) ++ le 4 0

/-- Bytes written at entry t of a ring. -/
def State.ringBytes (s : State) (x : Ring) (t : Nat) (bs : List Byte) : State :=
  { s with hostMem := writeBytes s.hostMem (x.base.toNat + 16 * t) bs }

/-- An MSI-X message with the address and data of its vector's entry, or its pending bit under a mask (R326, R346). -/
def State.interrupt (s : State) (v : Nat) : State :=
  if sget true s.cxl.mask v then { s with cxl := { s.cxl with pba := sset false s.cxl.pba v true } }
  else { s with cxl := { s.cxl with sent := smod 0 s.cxl.sent v (· + 1), msg := some (sget (0, 0) s.cxl.msix v) } }

/-- A record refused because no ring of this size can hold it (R342). -/
def State.refuseRec (s : State) (r : Nat) : State :=
  if r = 64 then s.modLead fun l => { l with evtLost := satAdd l.evtLost 1 }
  else s.modRing r fun x => { x with refused := satAdd x.refused 1 }

/-- A record written at the tail, behind a pad where it does not fit before the ring's end; none where room is short: the pad alone
may then have been written (R340, R341, R342, R346). `more`: a further record of the ring is ready. -/
def State.writeRec (s : State) (r : Nat) (c : Rec) (more : Bool) : Bool × State :=
  let x := s.ring r
  if x.size < c.len then (true, s.refuseRec r)
  else
    let pad := x.pad c.len
    if pad ≠ 0 ∧ x.size < x.used + pad then (false, s)
    else
      let s1 := if pad = 0 then s
        else (s.ringBytes x x.tail (padRec x.phase pad)).modRing r fun x => x.push pad
      let y := s1.ring r
      if y.size < y.used + c.len then (false, s1)
      else
        let s2 := (s1.ringBytes y y.tail (s1.header r y c ++ c.body)).modRing r fun x => { x.push c.len with since := x.since + 1 }
        let z := s2.ring r
        if z.irqEn && (decide (z.irqCount.toNat ≤ z.since) || !more) then
          (true, (s2.modRing r fun x => { x with since := 0 }).interrupt z.vector.toNat)
        else (true, s2)

/-! ## Admission and completion -/

/-- A CMD record (Table 14.6). -/
def State.cmdRecord (s : State) (c : Cmd) (status detail : Nat) : State :=
  s.produce c.pair { type := 1, tag := c.tag, status := status, body := le 8 detail }

/-- The fetched commands of a pair admitted in ring order, up to one whose FENCE waits (R337, R338). -/
def State.admitN (q : Nat) : Nat → State → State
  | 0, s => s
  | n + 1, s =>
    match (s.pair q).fetched with
    | [] => s
    | c :: rest =>
      if c.fence && decide ((s.pair q).inflight ≠ 0) then s
      else
        let s1 := s.modPair q fun p => { p with fetched := rest }
        match s1.checkCmd c with
        | some (st, d) => State.admitN q n (s1.cmdRecord c st d)
        | none => State.admitN q n (s1.modPair q fun p => { p with admitted := p.admitted ++ [c], inflight := p.inflight + 1 })

/-- The fetched commands of a pair admitted. -/
def State.admitAll (s : State) (q : Nat) : State := State.admitN q (s.pair q).fetched.length s

/-- An admitted command completes: its record, and what its completion lets in. -/
def State.finish (s : State) (c : Cmd) (status detail : Nat) : State :=
  ((s.cmdRecord c status detail).modPair c.pair fun p => { p with inflight := p.inflight - 1 }).admitAll c.pair

/-- A command aborted with the lead that held it: completed with ABORTED, DETAIL 1 (R395). -/
def State.leadLost (s : State) (c : Cmd) : State :=
  (s.cmdRecord c 0x11 1).modPair c.pair fun p => { p with inflight := p.inflight - 1 }

/-- The oldest admitted command of a pair for which p holds, run by f with the command taken from the list; a command whose module
state or resources have changed since its admission completes with the status they give (R338). -/
def State.runCmd (s : State) (q : Nat) (p : Cmd → Bool) (f : Cmd → State → State) : State :=
  match (s.pair q).admitted.find? p with
  | none => s
  | some c =>
    let s1 := s.modPair q fun x => { x with admitted := x.admitted.erase c }
    match s1.ownFail c with
    | some (st, d) => s1.finish c st d
    | none => f c s1

/-- The meaning of a command row of pair q. -/
def cmdRow (q : Nat) (p : Cmd → Bool) (f : Cmd → State → State) (s : State) : Out := guard (decide (q < 64)) (s.runCmd q p f)

/-- What a command does once the lead's access to host memory succeeds; HOST_FAULT where it fails (R331, R355, Table 14.4). -/
def State.withHost (s : State) (c : Cmd) (f : State → State) : State :=
  let (ok, s1) := s.leadHost
  if ok then f s1 else s1.finish c 0x0B 0

/-- What a command does once the host holds no line of a device range; until then it stays admitted (R330). -/
def State.givenUp (s : State) (c : Cmd) (a n : Nat) (f : State → State) : State :=
  match s.heldBy a n with
  | [] => f s
  | ls => (s.want ls).modPair c.pair fun p => { p with admitted := c :: p.admitted }

/-! ## BAR0 -/

/-- Whether the host can reach BAR0: the link is up (Table 20.2, phase 4b). -/
def State.bar0 (s : State) : Bool := s.cxl.link

/-- A refused BAR0 write (R334). -/
def State.setupErr (s : State) (code ring : Nat) : State :=
  s.modLead fun l => { l with setupCode := BitVec.ofNat 4 code, setupRing := BitVec.ofNat 7 ring }

/-- MR_CONFIG extended with the digest of a byte string (R449). -/
def State.extend (s : State) (bs : List Byte) : State :=
  s.modLead fun l => { l with mrConfig := Config.sha384 (bytesOf 48 l.mrConfig ++ bytesOf 48 (Config.sha384 bs)) }

/-- COOLING_WRITE (R4, R334, R400). -/
def execCoolingWrite (v : Word) (s : State) : Out :=
  .next (if !s.bar0 then s
    else if s.lead.cls ≠ 0 ∨ fld v 0 2 = 0#2 then s.setupErr 7 0x7F
    else ((s.modLead fun l => { l with cls := fld v 0 2 }).extend (bytesOf 4 v)).thermal 13 none 0 0)

/-- Whether the host memory window is in use (R334, code 8). -/
def State.winBusy (s : State) : Bool :=
  let host := fun (c : Cmd) => c.sides.any fun x => decide (x.space = 1)
  s.anyStream (fun x => decide (x.st ≠ 0 ∧ x.cm.kind = 6)) || s.dmaBusy host || s.lead.dmaWait.any host
    || s.pairs.any fun p => p.2.admitted.any fun c => decide (6 ≤ c.opcode ∧ c.opcode ≤ 8) && host c

/-- The window after a write of HOST_WIN_LO, HOST_WIN_HI or HOST_WIN_SIZE: its base and size. -/
def Lead.hostWin (l : Lead) (off : Nat) (v : Word) : DWord × BitVec 28 :=
  match off with
  | 0x18 => (setFld l.winBase 0 32 (fldN v 20 12 * 2 ^ 20), l.winSize)
  | 0x1C => (setFld l.winBase 32 32 v.toNat, l.winSize)
  | _ => (l.winBase, fld v 0 28)

/-- HOST_WIN_WRITE (R331, R334): HOST_WIN_LO, HOST_WIN_HI, HOST_WIN_SIZE; code 8 refuses a change while the window is in use. -/
def execHostWinWrite (off : Nat) (v : Word) (s : State) : Out :=
  .next (if !s.bar0 ∨ (off ≠ 0x18 ∧ off ≠ 0x1C ∧ off ≠ 0x20) then s
    else
      let (b, n) := s.lead.hostWin off v
      if (b ≠ s.lead.winBase ∨ n ≠ s.lead.winSize) ∧ s.winBusy then s.setupErr 8 0x7F
      else (s.modLead fun l => { l with winBase := b, winSize := n }).extend (bytesOf 4 v))

/-- SQ_CFG_WRITE (R334): SQ_BASE_LO, SQ_BASE_HI at 0 and 4, SQ_CFG at 8. -/
def execSqCfgWrite (ring off : Nat) (v : Word) (s : State) : Out :=
  guard (decide (ring < 64))
    (let p := s.pair ring
     if !s.bar0 then s
     else match off with
       | 0x0 =>
         let b := setFld p.base 0 32 (fldN v 12 20 * 2 ^ 12)
         if p.en ∧ b ≠ p.base then s.setupErr 1 ring else s.modPair ring fun p => { p with base := b }
       | 0x4 =>
         let b := setFld p.base 32 32 v.toNat
         if p.en ∧ b ≠ p.base then s.setupErr 1 ring else s.modPair ring fun p => { p with base := b }
       | 0x8 =>
         let log : BitVec 5 := fld v 0 5
         let en := bitOf v 8
         if p.en ∧ log ≠ p.log then s.setupErr 1 ring
         else if en ∧ !p.en ∧ (log.toNat < 4 ∨ 16 < log.toNat) then s.setupErr 2 ring
         else if en ∧ !p.cq.en then s.setupErr 5 ring
         else s.modPair ring fun p =>
           { p with log := log, en := en, head := if en && !p.en then 0 else p.head, tail := if en && !p.en then 0 else p.tail }
       | _ => s)

/-- A write of a record ring's base or CFG (R334): `home`: its pair is in use and may not be disabled. -/
def State.ringCfg (s : State) (r off : Nat) (v : Word) (home : Bool) : State :=
  let x := s.ring r
  match off with
  | 0x0 =>
    let b := setFld x.base 0 32 (fldN v 12 20 * 2 ^ 12)
    if x.en ∧ b ≠ x.base then s.setupErr 1 r else s.modRing r fun x => { x with base := b }
  | 0x4 =>
    let b := setFld x.base 32 32 v.toNat
    if x.en ∧ b ≠ x.base then s.setupErr 1 r else s.modRing r fun x => { x with base := b }
  | 0x8 =>
    let log : BitVec 5 := fld v 0 5
    let en := bitOf v 8
    let vec : BitVec 6 := fld v 10 6
    let cnt : BitVec 8 := fld v 16 8
    if x.en ∧ (log ≠ x.log ∨ vec ≠ x.vector ∨ cnt ≠ x.irqCount) then s.setupErr 1 r
    else if (en ∧ !x.en ∧ (log.toNat < 4 ∨ 16 < log.toNat)) ∨ cnt = 0 then s.setupErr 2 r
    else if x.en ∧ !en ∧ home then s.setupErr 6 r
    else s.modRing r fun x =>
      let y := { x with log := log, en := en, irqEn := bitOf v 9, vector := vec, irqCount := cnt }
      if en && !x.en then { y with tail := 0, phase := true, head := 0, used := 0, since := 0 } else y
  | _ => s

/-- CQ_CFG_WRITE (R334, R347): CQ_BASE_LO, CQ_BASE_HI at 0 and 4, CQ_CFG at 8. -/
def execCqCfgWrite (ring off : Nat) (v : Word) (s : State) : Out :=
  guard (decide (ring < 64))
    (if !s.bar0 then s
     else s.ringCfg ring off v ((s.pair ring).en || decide ((s.pair ring).inflight ≠ 0)
       || s.loadedStands.any fun n => decide ((s.stand n).pair = ring)))

/-- RR_CFG_WRITE (R334): RR_BASE_LO, RR_BASE_HI, RR_CFG of the event or debug ring. -/
def execRrCfgWrite (debug : Bool) (off : Nat) (v : Word) (s : State) : Out :=
  .next (if !s.bar0 then s else s.ringCfg (if debug then 65 else 64) off v false)

/-- SQ_TAIL_DB (R334, R335). -/
def execSqTailDb (ring : Nat) (v : Word) (s : State) : Out :=
  guard (decide (ring < 64))
    (let p := s.pair ring
     if !s.bar0 ∨ s.lead.state = 0 then s
     else if !p.en then s.setupErr 4 ring
     else if 2 ^ p.log.toNat ≤ fldN v 0 16 then s.setupErr 3 ring
     else s.modPair ring fun p => { p with tail := fldN v 0 16 })

/-- A head doorbell (R334, R340). -/
def State.headDb (s : State) (r : Nat) (v : Word) : State :=
  let x := s.ring r
  let h := fldN v 0 16
  if !s.bar0 ∨ s.lead.state = 0 then s
  else if !x.en then s.setupErr 4 r
  else if x.size ≤ h then s.setupErr 3 r
  else
    let n := if h = x.head then (if x.used = x.size then x.size else 0) else (h + x.size - x.head) % x.size
    if x.used < n then s.setupErr 3 r
    else s.modRing r fun x => { x with head := h, used := x.used - n }

/-- CQ_HEAD_DB (R340). -/
def execCqHeadDb (ring : Nat) (v : Word) (s : State) : Out := guard (decide (ring < 64)) (s.headDb ring v)
/-- EVT_HEAD_DB (R340). -/
def execEvtHeadDb (v : Word) (s : State) : Out := .next (s.headDb 64 v)
/-- DBG_HEAD_DB (R340). -/
def execDbgHeadDb (v : Word) (s : State) : Out := .next (s.headDb 65 v)

/-! ## Fetching -/

/-- The commands of a pair that a command record is still to be written for (R343). -/
def Pair.owed (p : Pair) : Nat := p.inflight + p.fetched.length + (p.cq.wait.filter fun r => decide (r.type = 1)).length

/-- Whether a pair is eligible for a fetch (R336, R464): with 256 command records owed there is none (R343). -/
def State.eligible (s : State) (q : Nat) : Bool :=
  let p := s.pair q
  p.en && p.cq.en && decide (p.head ≠ p.tail) && decide (p.inflight < 256) && decide (p.owed < 256) && !p.cq.waits
    && decide (s.lead.state ≠ 0) && s.stewards s.leadDie && s.cxl.link

/-- The pair visited next (R336). -/
def State.nextPair (s : State) : Option Nat := ((List.range 64).map fun i => (s.lead.turn + i) % 64).find? s.eligible

/-- Entries fetched, up to n (R335). -/
def State.fetchN (q : Nat) : Nat → State → State
  | 0, s => s
  | n + 1, s =>
    let p := s.pair q
    if p.head = p.tail then s
    else
      let e := readBytes s.hostMem (p.base.toNat + 64 * p.head) 64
      State.fetchN q n (s.modPair q fun p =>
        { p with head := (p.head + 1) % 2 ^ p.log.toNat, fetched := p.fetched ++ [{ pair := q, entry := e }] })

/-- SUBMISSION_FETCH (R336, R338, R343): the pair whose visit it is. -/
def execSubmissionFetch (pair : Nat) (s : State) : Out :=
  guard (decide (pair < 64))
    (if s.nextPair = some pair then
       ((State.fetchN pair (min 4 (256 - (s.pair pair).owed)) s).modLead fun l => { l with turn := (pair + 1) % 64 }).admitAll pair
     else s)

/-! ## Events -/

/-- The backlog bytes of an event (R344, R354). -/
def Event.bytes : Event → Nat
  | .record r => 16 * r.len
  | .stall .. => 64

/-- EVENT_BACKLOG_POST (R344): the oldest posted event enters the backlog, or is discarded. -/
def execEventBacklogPost (s : State) : Out :=
  .next (match s.lead.toPost with
    | [] => s
    | e :: rest =>
      let s1 := s.modLead fun l => { l with toPost := rest }
      if (s.lead.backlog.map Event.bytes).foldl (· + ·) 0 + e.bytes ≤ 2 ^ 20 then
        s1.modLead fun l => { l with backlog := l.backlog ++ [e] }
      else s1.modLead fun l => { l with evtLost := satAdd l.evtLost 1, lostNow := l.lostNow + 1 })

/-- The event ring's next record: EVENTS_LOST after discards, else the backlog's head (R344). -/
def State.writeEvent (s : State) : State :=
  if !s.events.en then s
  else if s.lead.lostNow ≠ 0 then
    let (ok, s1) := s.writeRec 64 { type := 0x10, body := le 8 s.lead.lostNow } (!s.lead.backlog.isEmpty)
    if ok then s1.modLead fun l => { l with lostNow := 0 } else s1
  else match s.lead.backlog with
    | .record r :: rest =>
      let (ok, s1) := s.writeRec 64 r (!rest.isEmpty)
      if ok then s1.modLead fun l => { l with backlog := rest } else s1
    | _ => s

/-- The debug ring's next record: DBG_LOST after discards, else the oldest (R496). -/
def State.writeDebug (s : State) : State :=
  if !(s.ring 65).en then s
  else if s.lead.dbgLost ≠ 0 then
    let (ok, s1) := s.writeRec 65 { type := 0x41, body := le 8 s.lead.dbgLost } (!s.lead.dbgLog.isEmpty)
    if ok then s1.modLead fun l => { l with dbgLost := 0 } else s1
  else match s.lead.dbgLog with
    | r :: rest =>
      let (ok, s1) := s.writeRec 65 r (!rest.isEmpty)
      if ok then s1.modLead fun l => { l with dbgLog := rest } else s1
    | [] => s

/-- The port and stream of a FRAME record, from its STREAM field (Table 14.8). -/
def Rec.stream (r : Rec) : Nat × Nat := let k := natOfBytes ((r.body.drop 8).take 2); (k / 16, k % 16)

/-- A FRAME record with the pending shed count of its stream (R345). -/
def Rec.withSince (r : Rec) (n : Nat) : Rec := { r with body := r.body.take 10 ++ le 2 (min n 0xFFFF) ++ r.body.drop 12 }

/-- A completion ring's next record (R343, R345, R347): a frame record carries its stream's pending shed count, and one for a disabled ring is
discarded. -/
def State.writeCompletion (s : State) (q : Nat) : State :=
  match (s.pair q).cq.wait with
  | [] => s
  | r :: rest =>
    let (e, st) := r.stream
    if !(s.pair q).cq.en then (if r.type = 3 then s.modRing q fun x => { x with wait := rest } else s)
    else
      let r1 := if r.type = 3 then r.withSince (sget {} (s.eth e).streams st).since else r
      let (ok, s1) := s.writeRec q r1 (!rest.isEmpty)
      if !ok then s1
      else
        let s2 := s1.modRing q fun x => { x with wait := rest }
        if r.type = 3 then s2.modEth e fun x => { x with streams := smod {} x.streams st fun y => { y with since := 0 } } else s2

/-- RECORD_WRITE (R340 to R346). -/
def execRecordWrite (ring : Nat) (s : State) : Out :=
  guard (decide (ring < 66)) (if ring = 64 then s.writeEvent else if ring = 65 then s.writeDebug else s.writeCompletion ring)

/-! ## BAR2 -/

/-- The address and data of vector k in the MSI-X table (R326). -/
def State.setMsix (s : State) (k : Nat) (addr : DWord) (data : Word) : State :=
  { s with cxl := { s.cxl with msix := sset (0, 0) s.cxl.msix k (addr, data) } }

/-- The mask bit of vector k written: with the mask gone, a message that it held is sent (R326, R346). -/
def State.setMask (s : State) (k : Nat) (masked : Bool) : State :=
  let s1 : State := { s with cxl := { s.cxl with mask := sset true s.cxl.mask k masked } }
  if !masked && sget false s.cxl.pba k then
    ({ s1 with cxl := { s1.cxl with pba := sset false s1.cxl.pba k false } } : State).interrupt k
  else s1

/-- MSIX_VECTOR_UNMASK (R326, R346): the host writes the vector's entry of BAR2, its address and data, and clears the mask bit; a held
message is sent. -/
def execMsixVectorUnmask (e : MsixEntry) (s : State) : Out :=
  guard (decide (e.vec < 64)) (if !s.cxl.link then s else (s.setMsix e.vec e.addr e.data).setMask e.vec false)

/-- A word of BAR2 (R326): 64 entries of 16 bytes, address, data and, in bit 0 of the last word, the mask bit; the pending bits from 0x800
on. PRESUMED (log 57): the layout. -/
def State.bar2Read (s : State) (off : Nat) : Word :=
  let x := s.cxl
  let e := sget (0, 0) x.msix (off / 16)
  if !x.link ∨ off % 4 ≠ 0 then 0
  else if off < 0x400 then
    (match off % 16 with
     | 0 => BitVec.ofNat 32 e.1.toNat
     | 4 => BitVec.ofNat 32 (e.1.toNat / 2 ^ 32)
     | 8 => e.2
     | _ => BitVec.ofNat 32 (b2n (sget true x.mask (off / 16))))
  else if off = 0x800 ∨ off = 0x804 then
    BitVec.ofNat 32 (((List.range 32).map fun i => b2n (sget false x.pba (8 * (off - 0x800) + i)) * 2 ^ i).foldl (· + ·) 0)
  else 0

/-- A 4-byte write of BAR2: a word of a vector's entry (R326, R346; log 57). -/
def State.bar2Write (s : State) (off : Nat) (v : Word) : State :=
  let k := off / 16
  let e := sget (0, 0) s.cxl.msix k
  if !s.cxl.link ∨ off % 4 ≠ 0 ∨ 0x400 ≤ off then s
  else match off % 16 with
    | 0 => s.setMsix k (setFld e.1 0 32 v.toNat) e.2
    | 4 => s.setMsix k (setFld e.1 32 32 v.toNat) e.2
    | 8 => s.setMsix k e.1 v
    | _ => s.setMask k (bitOf v 0)

/-! ## Stall events -/

/-- A word that the spec leaves open, numbered (log 14). -/
def State.freeWord (s : State) : Nat × State := ((Config.freeWord s.free).toNat, { s with free := s.free + 1 })

/-- The registers of a core in a STALL_CORE record (Table 14.9). -/
def Core.stallBytes (c : Core) (e : Env) : List Byte :=
  le 4 c.f.st.ctl.toNat ++ le 4 ((c.cand e 1).code + 2 ^ 4 * (c.th 1).pc.toNat)
    ++ (([0, 1, 2, 3].map fun q =>
      let x := c.tq q
      le 4 x.occ.toNat ++ le 4 (x.ctxOcc 0 + 2 ^ 16 * x.ctxOcc 1) ++ le 4 (x.ctxOcc 2 + 2 ^ 16 * x.ctxOcc 3)).flatten)
    ++ (([0, 1, 2, 3, 4, 5, 6, 7].map fun p => le 4 (c.tport p).bal.toNat).flatten)

/-- Bytes 20 to 107 of a STALL_CORE record: the core's registers read over the understory, which wakes a gated grove; zeros where it has left
the stand or its session hides it, words left open where the access is stopped (R200, R247, R297, R354, R458; log 14). -/
def State.snapshot (s : State) (n w : Nat) : List Byte × State :=
  let c := s.core w
  let hidden : Bool := match s.session (s.stand n).session with
    | some x => !x.relStall
    | none => false
  if !(s.stand n).loaded || !c.f.st.mode || decide (c.f.st.id.toNat ≠ n) || hidden then (List.replicate 88 0, s)
  else if !s.dieUp (dieOf w) || (s.accessStop w 0xC00 false).isSome then
    (List.range 22).foldl (fun (bs, s) _ => let (v, s1) := s.freeWord; (bs ++ le 4 v, s1)) (([] : List Byte), s)
  else let s1 := s.wake (groveOf w); ((s1.core w).stallBytes (s1.env w), s1)

/-- A STALL_CORE record around a core's snapshot (Table 14.9). -/
def stallCore (n i w : Nat) (bs : List Byte) : Rec :=
  { type := 0x12, len := 7, body := padTo 104 (le 2 n ++ le 2 0 ++ le 4 i ++ le 4 w ++ bs) }

/-- The STALL_CORE records of an event from core i on, as room allows: how many were written, and the state. `more`: the backlog holds more
behind the event (R346, R354). -/
def State.stallCores (n : Nat) (more : Bool) : List Nat → Nat → State → Nat × State
  | [], i, s => (i, s)
  | w :: ws, i, s =>
    if !(s.ring 64).fits 7 then (i, (s.writeRec 64 (stallCore n i w []) true).2)
    else
      let (bs, s1) := s.snapshot n w
      State.stallCores n more ws (i + 1) (s1.writeRec 64 (stallCore n i w bs) (more || !ws.isEmpty)).2

/-- STAND_STALL_POST (R247, R354): the event at the head of the backlog is written, as far as room allows. -/
def execStandStallPost (stand : Nat) (s : State) : Out :=
  guard (decide (stand < 4096))
    (match s.lead.backlog with
     | .stall n first cores next :: rest =>
       if n ≠ stand ∨ !s.events.en ∨ s.lead.lostNow ≠ 0 then s
       else
         let (ok, s1) := match next with
           | some _ => (true, s)
           | none => s.writeRec 64 { type := 0x11, len := 2, body := padTo 24 (le 2 n ++ le 2 0 ++ le 4 cores.length ++ le 4 first) } true
         if !ok then s1
         else
           let i := next.getD 0
           let (j, s2) := State.stallCores n (!rest.isEmpty) (cores.drop i) i s1
           s2.modLead fun l => { l with backlog := if j = cores.length then rest else .stall n first cores (some j) :: rest }
     | _ => s)

end Sys2Proof.Machine
end

