-- ==== Sys2Proof/Machine/HostCmds.lean ====
section
/-! DEFINITION. NOP, MEM_MAP, CFG_WRITE, CFG_READ, STAND_LOAD and STAND_CTL (R227, R253, R301, R349 to R352, R449, R455). -/
namespace Sys2Proof.Machine

/-- NOP (Table 14.5). -/
def execNop (pair : Nat) (s : State) : Out := cmdRow pair (fun c => decide (c.opcode = 0x00)) (fun c s => s.finish c 0 0) s

/-- MEM_MAP (R301, R351, R449). -/
def execMemMap (pair : Nat) (s : State) : Out :=
  cmdRow pair (fun c => decide (c.opcode = 0x01)) (fun c s =>
    ((s.modLead fun l => { l with near := BitVec.ofNat 64 (c.n 8 8), absent := BitVec.ofNat 64 (c.n 16 8) }).extend c.entry).finish c 0 0) s

/-! ## Configuration images -/

/-- A block of an image: byte offset of its header, its words 0 and 1, TARGET_B, and where its data begins (Table 14.10). -/
structure Block where
  at_ : Nat
  target : Nat
  kind : Nat
  offset : Nat
  count : Nat
  targetB : Nat
  deriving DecidableEq, Repr

/-- Word i of an image. -/
def imgWord (img : List Byte) (i : Nat) : Nat := natOfBytes ((img.drop (4 * i)).take 4)

/-- The block whose header starts at byte o. -/
def blockAt (img : List Byte) (o : Nat) : Block :=
  let w0 := imgWord img (o / 4)
  let w1 := imgWord img (o / 4 + 1)
  ⟨o, w0, w1 % 4, w1 / 4 % 2 ^ 14 * 4, w1 / 2 ^ 16, if w1 % 4 = 3 then imgWord img (o / 4 + 2) else 0⟩

/-- Where a block's data begins. -/
def Block.data (b : Block) : Nat := b.at_ + if b.kind = 3 then 12 else 8
/-- The first byte after a block. -/
def Block.next (b : Block) : Nat := b.data + 4 * b.count

/-- The cores that a block writes. -/
def Block.cores (b : Block) : List Nat :=
  match b.kind with
  | 0 => [b.target]
  | 3 => rectCores (rectOf b.target b.targetB)
  | _ => []

/-- The targets of a block. -/
def blockTargets (b : Block) : List CfgTarget :=
  match b.kind with
  | 1 => [.port b.target]
  | 2 => [.dma (engineNo (b.target % 32) (b.target / 32 % 16))]
  | _ => b.cores.map .core

/-- What a loader may write: the session of the command, whether unbound cores may be written, and the rectangle that bounds them. -/
structure Loader where
  session : Nat
  rect : Option (Nat × Nat × Nat × Nat)
  deriving DecidableEq, Repr

/-- Whether a core may be written by a loader's session: bound to it, or unbound where the stand is being loaded or no session is
named (R455). -/
def State.mayWrite (s : State) (x : Loader) (w : Nat) : Bool :=
  let b := (s.core w).t.session
  decide (b = x.session) || (x.rect.isSome && decide (b = 0))

/-- The checks of a block in the order of R338: the status and DETAIL of the first that fails (R350, R352, R459). -/
def State.blockBad (s : State) (x : Loader) (len : Nat) (b : Block) : Option (Nat × Nat) :=
  if len < b.at_ + 8 then some (0x01, b.at_ + 6)
  else if (targetBad b.target b.kind).isSome then some (0x04, b.at_)
  else if b.kind = 3 ∧ 2 ^ 18 ≤ b.targetB then some (0x04, b.at_ + 8)
  else
    let ok := coordOk b.target && (decide (b.kind ≠ 3) || coordOk b.targetB)
    let core := decide (b.kind = 0 ∨ b.kind = 3)
    if core && ok && b.cores.any (fun w => !s.mayWrite x w) then some (0x06, 4)
    else if core && !coordOk b.target then some (0x02, b.at_)
    else if decide (b.kind = 3) && !coordOk b.targetB then some (0x02, b.at_ + 8)
    else if b.count = 0 ∨ len < b.next ∨ 2 ^ 16 < b.offset + 4 * b.count then some (0x01, b.at_ + 6)
    else match x.rect with
      | some r => if b.cores.any fun w => !inRect r w then some (0x08, 0) else none
      | none => none

/-- The first pass over an image: its blocks, or the first failure (R350). -/
def State.readImage (s : State) (x : Loader) (img : List Byte) : Nat → Nat → (Nat × Nat) ⊕ List Block
  | 0, _ => .inr []
  | n + 1, o =>
    if img.length ≤ o then .inr []
    else
      let b := blockAt img o
      match s.blockBad x img.length b with
      | some e => .inl e
      | none => match s.readImage x img n b.next with
        | .inl e => .inl e
        | .inr bs => .inr (b :: bs)

/-- One word written to some targets: the understory status of the first that does not return OK. -/
def State.writeWord (off : Nat) (v : Word) : List CfgTarget → State → Nat × State
  | [], s => (0, s)
  | t :: ts, s =>
    let (st, _, s1) := s.access { requester := hostReq, target := t, offset := off, write := some v }
    if st ≠ 0 then (st, s1) else State.writeWord off v ts s1

/-- Words i on of a block written, n of them: the failing word's byte offset and status, or none. -/
def State.writeBlock (img : List Byte) (b : Block) (ts : List CfgTarget) : Nat → Nat → State → Option (Nat × Nat) × State
  | 0, _, s => (none, s)
  | n + 1, i, s =>
    let o := b.data + 4 * i
    let (st, s1) := State.writeWord (b.offset + 4 * i) (BitVec.ofNat 32 (imgWord img (o / 4))) ts s
    if st ≠ 0 then (some (o, st), s1) else State.writeBlock img b ts n (i + 1) s1

/-- The second pass: blocks written in image order (R350). -/
def State.applyImage (img : List Byte) : List Block → State → Option (Nat × Nat) × State
  | [], s => (none, s)
  | b :: bs, s =>
    match State.writeBlock img b (blockTargets b) b.count 0 s with
    | (some e, s1) => (some e, s1)
    | (none, s1) => State.applyImage img bs s1

/-- What a command does with its image, fetched from host memory, or, in a session, from device memory that the host does not hold; the status
where it cannot be read (R330, R331, R455, Table 14.4). -/
def State.withImage (s : State) (c : Cmd) (a n : Nat) (f : List Byte → State → State) : State :=
  if c.session = 0 then s.withHost c fun s => f (s.hostRead a n) s
  else s.givenUp c a n fun s => match s.devRead a n c.session with
    | (0, bs, s1) => f bs s1
    | (r, _, s1) => s1.finish c (if r = 6 then 0x09 else if r = 7 then 0x0A else 0x0C) 0

/-- DETAIL of CFG_REFUSED: the failing offset and the understory status. -/
def cfgDetail (o st : Nat) : Nat := o + 2 ^ 32 * st

/-- CFG_WRITE (R350, R449, R455). -/
def execCfgWrite (pair : Nat) (s : State) : Out :=
  cmdRow pair (fun c => decide (c.opcode = 0x02)) (fun c s =>
    s.withImage c (c.n 8 8) (c.n 16 4) fun img s1 =>
      match s1.readImage ⟨c.session, none⟩ img img.length 0 with
      | .inl (st, d) => s1.finish c st d
      | .inr bs =>
        let s2 := if c.session = 0 then s1.extend img else s1
        match s2.applyImage img bs with
        | (some (o, st), s3) => s3.finish c 0x07 (cfgDetail o st)
        | (none, s3) => s3.finish c 0 0) s

/-! ## CFG_READ -/

/-- Words read from a target: those before the first that does not return OK, and its status. -/
def State.readWords (t : CfgTarget) : Nat → Nat → State → List Word × Nat × State
  | 0, _, s => ([], 0, s)
  | n + 1, off, s =>
    match s.access { requester := hostReq, target := t, offset := off, write := none } with
    | (0, v, s1) => let (vs, st, s2) := State.readWords t n (off + 4) s1; (v :: vs, st, s2)
    | (st, _, s1) => ([], st, s1)

/-- CFG_READ (R350). -/
def execCfgRead (pair : Nat) (s : State) : Out :=
  cmdRow pair (fun c => decide (c.opcode = 0x03)) (fun c s =>
    let b : Block := ⟨0, c.n 8 4, c.n 12 4 % 4, c.n 12 2 / 4 * 4, c.n 14 2, 0⟩
    match blockTargets b with
    | [] => s.finish c 0x04 12
    | t :: _ =>
      let (vs, st, s1) := State.readWords t b.count b.offset s
      s1.withHost c fun s1 =>
        let s2 := s1.hostWrite (c.n 16 8) (vs.flatMap fun v => bytesOf 4 v)
        if st = 0 then s2.finish c 0 0 else s2.finish c 0x07 (cfgDetail (4 * vs.length) st)) s

/-! ## Stands -/

/-- STAND_ID written on the cores of a stand: the first status other than OK. -/
def State.setStandId (n : Nat) : List Nat → State → Nat × State
  | [], s => (0, s)
  | w :: ws, s =>
    match (if s.dieUp (dieOf w) then s.accessStop w 0xC00 true else some 5) with
    | some st => (st, s)
    | none => State.setStandId n ws ((s.wake (groveOf w)).modCore w fun c => c.modSt fun x => { x with id := BitVec.ofNat 12 n })

/-- The cores of a list bound to a session; 0 unbinds them (R455). -/
def State.bind (session : Nat) (ws : List Nat) (s : State) : State :=
  ws.foldl (fun s w => s.modCore w fun c => { c with t := { c.t with session := session } }) s

/-- A stand removed: a run not completed ends with ABORTED, and bound cores are re-initialised and unbound (R352, R455). -/
def State.unload (s : State) (n : Nat) : State :=
  let r := s.stand n
  let s1 := s.endRun n 0x11 0 0 0
  let s2 := if r.session = 0 then s1
    else (r.cores.foldl (fun s w => s.modCore w Core.initField) s1).bind 0 r.cores
  s2.modStand n fun _ => {}

/-- STAND_LOAD (R227, R352, R449, R455). DESIGN CHOICE (log 31): a stand of that number is unloaded first. -/
def execStandLoad (pair : Nat) (s : State) : Out :=
  cmdRow pair (fun c => decide (c.opcode = 0x04)) (fun c s =>
    let n := c.n 8 2
    let a := c.n 12 4
    let b := c.n 16 4
    let r := rectOf a b
    s.withImage c (c.n 24 8) (c.n 32 4) fun img s0 =>
      let s1 := if (s0.stand n).loaded then s0.unload n else s0
      match s1.readImage ⟨c.session, some r⟩ img img.length 0 with
      | .inl (st, d) => s1.finish c st d
      | .inr bs =>
        let s2 := s1.extend (c.entry ++ if c.session = 0 then img else [])
        let s3 := if c.session = 0 then s2 else s2.bind c.session (rectCores r)
        match s3.applyImage img bs with
        | (some (o, st), s4) => s4.finish c 0x07 (cfgDetail o st)
        | (none, s4) =>
          match State.setStandId n (rectCores r) s4 with
          | (0, s5) =>
            (s5.modStand n fun _ => { loaded := true, a := a, b := b, pair := pair, session := c.session }).finish c 0 0
          | (st, s5) => let (f, s6) := s5.freeWord; s6.finish c 0x07 (cfgDetail f st)) s

/-- Whether a command is STAND_CTL with an OP. -/
def isStandCtl (op : Nat) (c : Cmd) : Bool := decide (c.opcode = 0x05 ∧ c.n 10 1 = op)

/-- STAND_CTL, OP START (R253, R352): the run carries the TAG of the command. -/
def execStandCtlStart (pair : Nat) (s : State) : Out :=
  cmdRow pair (isStandCtl 0) (fun c s => (s.startRun (c.n 8 2) c.tag).finish c 0 0) s

/-- STAND_CTL, OP STOP (R253). -/
def execStandCtlStop (pair : Nat) (s : State) : Out :=
  cmdRow pair (isStandCtl 1) (fun c s => (s.standReq 1 (c.n 8 2) 0).finish c 0 0) s

/-- STAND_CTL, OP ABORT (R253). -/
def execStandCtlAbort (pair : Nat) (s : State) : Out :=
  cmdRow pair (isStandCtl 2) (fun c s => (s.standReq 2 (c.n 8 2) 0).finish c 0 0) s

/-- STAND_CTL, OP UNLOAD (R352). -/
def execStandCtlUnload (pair : Nat) (s : State) : Out :=
  cmdRow pair (isStandCtl 3) (fun c s => (s.unload (c.n 8 2)).finish c 0 0) s

end Sys2Proof.Machine
end

