-- ==== Sys2Proof/Machine/Dma.lean ====
section
/-! DEFINITION. DMA transfers: assignment, the read side, the write side, comparison and completion (R356 to R370). -/
namespace Sys2Proof.Machine

/-! ## Assignment -/

/-- The lowest free slot of an engine. -/
def Engine.freeSlot (x : Engine) : Nat :=
  ((List.range 64).find? fun k => !x.xfers.any fun t => decide (t.slot = k)).getD 64

/-- A command given to an engine that has room. -/
def State.assign (s : State) (e : Nat) (c : Cmd) : State :=
  s.modEngine e fun x => { x with xfers := x.xfers ++ [{ slot := x.freeSlot, cmd := c }] }

/-- An admitted DMA command: assigned, or left to wait in the lead behind the commands that wait for the same engine (R362). -/
def State.startDma (s : State) (c : Cmd) : State :=
  let e := s.engineFor c
  if 64 ≤ (s.engine e).xfers.length ∨ s.lead.dmaWait.any (fun d => decide (s.engineFor d = e)) then
    s.modLead fun l => { l with dmaWait := l.dmaWait ++ [c] }
  else s.assign e c

/-- COPY (R358 to R362). -/
def execCopy (pair : Nat) (s : State) : Out := cmdRow pair (fun c => decide (c.opcode = 0x06)) (fun c s => s.startDma c) s
/-- FILL (R358 to R362). -/
def execFill (pair : Nat) (s : State) : Out := cmdRow pair (fun c => decide (c.opcode = 0x07)) (fun c s => s.startDma c) s
/-- COMPARE (R358 to R362, R366). -/
def execCompare (pair : Nat) (s : State) : Out := cmdRow pair (fun c => decide (c.opcode = 0x08)) (fun c s => s.startDma c) s

/-- DMA_ENGINE_ASSIGN (R362): the first waiting command whose engine this is. -/
def execDmaEngineAssign (engine : Nat) (s : State) : Out :=
  guard (decide (engine < 58))
    (match s.lead.dmaWait.find? fun c => decide (s.engineFor c = engine) with
     | none => s
     | some c =>
       if 64 ≤ (s.engine engine).xfers.length then s
       else (s.modLead fun l => { l with dmaWait := l.dmaWait.erase c }).assign engine c)

/-! ## Transfers -/

/-- Side k of a command: 0 the source or side A, otherwise the destination or side B. -/
def Cmd.side (c : Cmd) (k : Nat) : Side := if k = 0 then c.src else c.dst
/-- The address within its space of byte o of a transfer on a side (R361). -/
def Cmd.place (c : Cmd) (x : Side) (o : Nat) : Nat := c.addr x + if x.fixed then o % c.blk else o
/-- The bytes from offset o to the end of the aligned piece of a size that holds its address, clipped to the transfer and its block. -/
def Cmd.piece (c : Cmd) (x : Side) (o size : Nat) : Nat :=
  min (min (size - c.place x o % size) (c.length - o)) (if x.fixed then c.blk - o % c.blk else size)

/-- The transfers of an engine in rotation from a slot (R363). -/
def Engine.rotation (x : Engine) (turn : Nat) : List Xfer :=
  (List.range 64).filterMap fun i => x.xfers.find? fun t => decide (t.slot = (turn + i) % 64)

/-- The state with f applied to the transfer in a slot of engine e. -/
def State.modXfer (s : State) (e slot : Nat) (f : Xfer → Xfer) : State :=
  s.modEngine e fun x => { x with xfers := x.xfers.map fun t => if t.slot = slot then f t else t }

/-- n added to counter i of engine e (Table 15.6). -/
def State.dmaCount (s : State) (e i n : Nat) : State :=
  s.modEngine e fun x => { x with cnt := smod 0 x.cnt i (· + BitVec.ofNat 64 n) }

/-- The scratchpad sides of a command: side number and side. -/
def Cmd.spads (c : Cmd) : List (Nat × Side) :=
  (if c.opcode = 7 then [(1, c.dst)] else [(0, c.src), (1, c.dst)]).filter fun p => decide (p.2.space = 2)

/-- Whether every core of a transfer has room for its tracked ranges (R364). -/
def State.canTrack (s : State) (c : Cmd) : Bool :=
  c.spads.all fun p =>
    decide ((s.core (c.core p.2)).f.dmaRange.length + (c.spads.filter fun q => decide (c.core q.2 = c.core p.2)).length ≤ 2)

/-- The tracked ranges of a transfer taken (R134, R364). -/
def State.track (s : State) (e : Nat) (x : Xfer) : State :=
  if x.tracked then s
  else
    let c := x.cmd
    (c.spads.foldl (fun s p => s.modCore (c.core p.2) fun k =>
      { k with f := { k.f with dmaRange := k.f.dmaRange ++
        [⟨e, x.slot, c.addr p.2, c.span p.2, decide (p.1 = 1 ∧ c.opcode ≠ 8), p.2.fixed⟩] } }) s).modXfer e x.slot fun x =>
      { x with tracked := true }

/-- The tracked ranges of a transfer released. -/
def State.untrack (s : State) (e : Nat) (x : Xfer) : State :=
  x.cmd.spads.foldl (fun s p => s.modCore (x.cmd.core p.2) fun k =>
    { k with f := { k.f with dmaRange := k.f.dmaRange.filter fun r => !decide (r.eng = e ∧ r.slot = x.slot) } }) s

/-- A request of an engine to the far end of a side: straight to the port beside it, otherwise over the mesh (R286, R357). -/
def State.dmaSend (s : State) (e : Nat) (dst : Node) (bytes : Nat) (body : Body) : State :=
  let p := mkPacket (.dma e) dst false false bytes body
  if beside e = dst then
    match dst with
    | .mem m => s.modPort m fun x => { x with direct := x.direct ++ [p] }
    | _ => { s with cxl := { s.cxl with direct := s.cxl.direct ++ [p] } }
  else s.fromPort (.dma e) dst false bytes body

/-- Where a side's byte o is: the node and the address there, or the REASON it cannot be reached (R302, R303, R331). -/
def State.dmaNode (s : State) (c : Cmd) (x : Side) (o : Nat) : Nat ⊕ (Node × Nat) :=
  let a := c.place x o
  match x.space with
  | 0 => match s.mapAddr a with
    | .inl _ => .inl 4
    | .inr (m, _) => .inr (.mem m, a)
  | 1 => .inr (.cxl, a)
  | _ => .inr (.core (c.core x), a)

/-! ## The read side -/

/-- The next read of a transfer: side, offset, length; none where it has none to make (R363, R366, R368). -/
def Xfer.nextRead (x : Xfer) : Option (Nat × Nat × Nat) :=
  let c := x.cmd
  let go := fun (k o : Nat) =>
    let y := c.side k
    some (k, o, c.piece y o (if y.space = 0 then 256 else 64))
  if x.fault.isSome || x.diff.isSome then none
  else match c.opcode with
    | 6 => if x.rdA < c.length then go 0 x.rdA else none
    | 8 => if x.rdA ≤ x.rdB ∧ x.rdA < c.length then go 0 x.rdA else if x.rdB < c.length then go 1 x.rdB else none
    | _ => none

/-- The reads that an engine visits in a cycle: whether one waited for tracking, whether one waited for room, and the one that goes
(R363, R364). -/
def State.pickRead (s : State) (used : Nat) : List Xfer → Bool × Bool × Option (Xfer × Nat × Nat × Nat)
  | [] => (false, false, none)
  | x :: xs =>
    match x.nextRead with
    | none => s.pickRead used xs
    | some (k, o, n) =>
      if !x.tracked && !s.canTrack x.cmd then
        let (_, b, r) := s.pickRead used xs; (true, b, r)
      else if 4096 < x.held + n ∨ 65536 < used + n then
        let (a, _, r) := s.pickRead used xs; (a, true, r)
      else (false, false, some (x, k, o, n))

/-- A read issued. -/
def State.issueRead (s : State) (e : Nat) (x : Xfer) (k o n : Nat) : State :=
  let s1 := (s.track e x).modEngine e fun y => { y with rdTurn := (x.slot + 1) % 64 }
  match s.dmaNode x.cmd (x.cmd.side k) o with
  | .inl r => s1.modXfer e x.slot fun x => { x with fault := lowerFault x.fault (some (r, o)) }
  | .inr (n', a) =>
    let id := (s1.engine e).nextId
    let s2 := (s1.modEngine e fun y => { y with nextId := y.nextId + 1 }).modXfer e x.slot fun x =>
      { x with reqs := x.reqs ++ [⟨id, k, o, n⟩], rdA := if k = 0 then o + n else x.rdA, rdB := if k = 0 then x.rdB else o + n }
    s2.dmaSend e n' 1 (.dread id a n)

/-- Whether an engine works: its die is up. -/
def State.engineUp (s : State) (e : Nat) : Bool := s.dieUp (engineName e).1

/-- DMA_READ_REQUEST (R363, R364): a cycle of the read side. -/
def execDmaReadRequest (engine : Nat) (s : State) : Out :=
  guard (decide (engine < 58))
    (if !s.engineUp engine then s
     else
       let y := s.engine engine
       let (a, b, r) := s.pickRead ((y.xfers.map Xfer.held).foldl (· + ·) 0) (y.rotation y.rdTurn)
       let s1 := if a then s.dmaCount engine 5 1 else s
       let s2 := if b then s1.dmaCount engine 6 1 else s1
       match r with
       | some (x, k, o, n) => s2.issueRead engine x k o n
       | none => s2)

/-! ## Replies -/

/-- The pieces of a buffer in increasing offset order with one more. -/
def addPiece (p : Nat × List Byte) : List (Nat × List Byte) → List (Nat × List Byte)
  | [] => [p]
  | q :: qs => if p.1 < q.1 then p :: q :: qs else q :: addPiece p qs

/-- The landed bytes that follow offset o without a gap. -/
def prefixFrom : Nat → List (Nat × List Byte) → List Byte
  | _, [] => []
  | o, (a, bs) :: ps => if a ≤ o ∧ o ≤ a + bs.length then let r := bs.drop (o - a); r ++ prefixFrom (o + r.length) ps else []

/-- A buffer without its bytes below offset o. -/
def dropBelow (o : Nat) (ps : List (Nat × List Byte)) : List (Nat × List Byte) :=
  (ps.map fun p => if p.1 < o then (o, p.2.drop (o - p.1)) else p).filter fun p => !p.2.isEmpty

/-- The first place at which two strings differ, from offset o on. -/
def firstDiff : Nat → List Byte → List Byte → Option (Nat × Byte × Byte)
  | o, a :: as, b :: bs => if a = b then firstDiff (o + 1) as bs else some (o, a, b)
  | _, _, _ => none

/-- The errors met in reading n bytes of the buffer from offset o of a transfer (R368). -/
def Xfer.met (x : Xfer) (o n : Nat) : List BufErr := x.marks.filter fun m => decide (8 * m.word < o + n ∧ o < 8 * m.word + 8)

/-- The bytes from offset o, of n, that come before the first word that cannot be corrected. -/
def Xfer.clean (x : Xfer) (o n : Nat) : Nat := ((x.met o n).filter (·.ue)).foldl (fun k m => min k (8 * m.word - o)) n

/-- Buffer errors met by engine e: the corrected counted, the others counted and noticed (R368, Table 15.6, Table 18.6). -/
def State.bufErrs (s : State) (e : Nat) (ms : List BufErr) : State :=
  if ms.isEmpty then s
  else
    let ues := (ms.filter (·.ue)).length
    let s1 := s.modEngine e fun y => { y with bufCe := satAdd y.bufCe (ms.length - ues), bufUe := satAdd y.bufUe ues }
    (List.range ues).foldl (fun s _ => s.sendNotice (engineName e).1 (.bufUe e)) s1

/-- What has landed on both sides of a COMPARE compared: the transfer, the bytes compared, and the buffer errors met; a word that
cannot be corrected stops it with BUF_UE (R363, R366, R368). -/
def Xfer.compare (x : Xfer) : Xfer × Nat × List BufErr :=
  if x.cmd.opcode ≠ 8 ∨ x.diff.isSome then (x, 0, [])
  else
    let a := prefixFrom x.wr x.bufA
    let b := prefixFrom x.wr x.bufB
    let n0 := min a.length b.length
    let n1 := match x.fault with
      | some (_, o) => min n0 (o - x.wr)
      | none => n0
    let n := x.clean x.wr n1
    match firstDiff x.wr (a.take n) (b.take n) with
    | some d => ({ x with diff := some d, wr := d.1, bufA := [], bufB := [], marks := [] }, d.1 + 1 - x.wr, x.met x.wr (d.1 + 1 - x.wr))
    | none =>
      ({ x with wr := x.wr + n, bufA := dropBelow (x.wr + n) x.bufA, bufB := dropBelow (x.wr + n) x.bufB
                marks := x.marks.filter fun m => !decide (8 * m.word + 8 ≤ x.wr + n)
                fault := if n < n1 then lowerFault x.fault (some (3, x.wr + n)) else x.fault },
        n, x.met x.wr (if n < n1 then n + 1 else n))

/-- A read reply landed in its transfer: the transfer, the bytes landed, the bytes compared, and the buffer errors met (R363, R368). -/
def Xfer.land (x : Xfer) (r : DReq) (fault : Nat) (bs : List Byte) : Xfer × Nat × Nat × List BufErr :=
  let x1 := { x with reqs := x.reqs.erase r }
  if fault ≠ 0 then ({ x1 with fault := lowerFault x.fault (some (fault, r.off)) }, 0, 0, [])
  else if x.diff.isSome then (x1, bs.length, 0, [])
  else
    let x2 := if r.side = 0 then { x1 with bufA := addPiece (r.off, bs) x1.bufA } else { x1 with bufB := addPiece (r.off, bs) x1.bufB }
    let (x3, n, ms) := x2.compare
    (x3, bs.length, n, ms)

/-- DMA_READ_REPLY (R363, R366, R368): the first read reply that has reached the engine. -/
def execDmaReadReply (engine : Nat) (s : State) : Out :=
  guard (decide (engine < 58))
    (match (s.engine engine).replies with
     | [] => s
     | p :: ps =>
       let s1 := s.modEngine engine fun y => { y with replies := ps }
       match p.body with
       | .drep id f bs =>
         match (s.engine engine).xfers.find? fun x => x.reqs.any fun r => decide (r.id = id) with
         | none => s1
         | some x =>
           match x.reqs.find? fun r => decide (r.id = id) with
           | none => s1
           | some r =>
             let (x1, n, m, es) := x.land r f.toNat bs
             (((s1.modXfer engine x.slot fun _ => x1).dmaCount engine 1 n).dmaCount engine 3 m).bufErrs engine es
       | _ => s1)

/-! ## The write side -/

/-- The bytes of a transfer that may be written: up to the lowest fault (R368). -/
def Xfer.limit (x : Xfer) : Nat := match x.fault with
  | some (_, o) => min o x.cmd.length
  | none => x.cmd.length

/-- The next beat of a transfer: offset and bytes; none where no beat is ready (R361, R363). -/
def Xfer.beat (x : Xfer) : Option (Nat × List Byte) :=
  let c := x.cmd
  let n := min (c.piece c.dst x.wr 32) (x.limit - x.wr)
  if n = 0 ∨ c.opcode = 8 then none
  else if c.opcode = 7 then
    some (x.wr, (List.range n).map fun i => BitVec.ofNat 8 (c.n (32 + (x.wr + i) % 8) 1))
  else
    let bs := (prefixFrom x.wr x.bufA).take n
    if bs.length = n then some (x.wr, bs) else none

/-- The beats that an engine visits: whether one waited for tracking, and the one that goes. -/
def State.pickBeat (s : State) : List Xfer → Bool × Option (Xfer × Nat × List Byte)
  | [] => (false, none)
  | x :: xs =>
    match x.beat with
    | none => s.pickBeat xs
    | some (o, bs) =>
      if !x.tracked && !s.canTrack x.cmd then (true, (s.pickBeat xs).2) else (false, some (x, o, bs))

/-- DMA_WRITE_BEAT (R361, R363, R364): a cycle of the write side. -/
def execDmaWriteBeat (engine : Nat) (s : State) : Out :=
  guard (decide (engine < 58))
    (if !s.engineUp engine then s
     else
       let y := s.engine engine
       let (a, r) := s.pickBeat (y.rotation y.wrTurn)
       let s1 := if a then s.dmaCount engine 5 1 else s
       match r with
       | none => s1
       | some (x, o, bs) =>
         let s2 := (s1.track engine x).modEngine engine fun y => { y with wrTurn := (x.slot + 1) % 64 }
         let es := if x.cmd.opcode = 6 then x.met o bs.length else []
         if es.any (·.ue) then
           (s2.modXfer engine x.slot fun x => { x with fault := lowerFault x.fault (some (3, o)) }).bufErrs engine es
         else match s.dmaNode x.cmd x.cmd.dst o with
         | .inl k => s2.modXfer engine x.slot fun x => { x with fault := lowerFault x.fault (some (k, o)) }
         | .inr (n, ad) =>
           let id := (s2.engine engine).nextId
           let s3 := (s2.modEngine engine fun y => { y with nextId := y.nextId + 1 }).modXfer engine x.slot fun x =>
             { x with reqs := x.reqs ++ [⟨id, 2, o, bs.length⟩], wr := o + bs.length, bufA := dropBelow (o + bs.length) x.bufA
                      marks := x.marks.filter fun m => !decide (8 * m.word + 8 ≤ o + bs.length) }
           ((s3.dmaSend engine n bs.length (.dwrite id ad bs)).dmaCount engine 2 bs.length).bufErrs engine es)

/-! ## A scratchpad that leaves a transfer -/

/-- A transfer whose scratchpad in grove g is cleared or fenced while it runs: the first request still to be made of it fails (R368, Table
15.4). -/
def Xfer.spadGone (x : Xfer) (g reason : Nat) : Xfer :=
  let c := x.cmd
  let at_ := fun (k : Nat) => if k = 0 then x.rdA else if c.opcode = 8 then x.rdB else x.wr
  (c.spads.filter fun p => decide (groveOf (c.core p.2) = g ∧ at_ p.1 < c.length)).foldl (fun x p =>
    { x with fault := lowerFault x.fault (some (reason, at_ p.1)) }) x

/-- The transfers that touch scratchpads of grove g as it is cleared, reason 7, or fenced, reason 8 (R368, R408, R427). -/
def State.spadsGone (s : State) (g reason : Nat) : State :=
  { s with engines := s.engines.map fun e => (e.1, { e.2 with xfers := e.2.xfers.map fun x => x.spadGone g reason }) }

/-! ## Completion -/

/-- The status of a REASON (Table 15.4). -/
def reasonStatus (r : Nat) : Nat := if r ≤ 3 then 0x0C else if r ≤ 5 then 0x0A else if r = 6 then 0x0B else 0x05

/-- Status, DETAIL and REASON of a transfer's completion (Table 15.3). -/
def Xfer.outcome (x : Xfer) : Nat × Nat × Nat :=
  match x.diff, x.fault with
  | some (o, a, b), _ => (0x0D, o + 2 ^ 48 * a.toNat + 2 ^ 56 * b.toNat, 0)
  | none, some (r, o) => (reasonStatus r, o + 2 ^ 48 * r, r)
  | none, none => (0x00, x.cmd.length % 2 ^ 48, 0)

/-- Whether a transfer has ended: nothing outstanding, and all its bytes below the fault written or compared (R365, R366, R368). -/
def Xfer.ended (x : Xfer) : Bool := x.reqs.isEmpty && (x.diff.isSome || decide (x.limit ≤ x.wr))

/-- A transfer leaves its engine and its command completes (R367, R370). -/
def State.endXfer (s : State) (e : Nat) (x : Xfer) : State :=
  let (st, d, r) := x.outcome
  let s1 := (s.untrack e x).modEngine e fun y => { y with xfers := y.xfers.filter fun t => !decide (t.slot = x.slot) }
  let s2 := s1.dmaCount e 0 1
  let s3 := if r = 0 then s2 else (s2.dmaCount e 4 1).modEngine e fun y => { y with lastReason := BitVec.ofNat 8 r }
  if x.dropped then s3 else s3.finish x.cmd st d

/-- DMA_TRANSFER_COMPLETE (R365 to R368): the ended transfer in the lowest slot. -/
def execDmaTransferComplete (engine : Nat) (s : State) : Out :=
  guard (decide (engine < 58))
    (match ((s.engine engine).rotation 0).find? Xfer.ended with
     | none => s
     | some x => s.endXfer engine x)

/-- DMA_CNT_CLR (R370): a write of DMA_CFG. -/
def execDmaCntClr (engine : Nat) (s : State) : Out :=
  guard (decide (engine < 58)) (s.answered { requester := hostReq, target := .dma engine, offset := 0x8, write := some 1 })

end Sys2Proof.Machine
end

