-- ==== Sys2Proof/Machine/EthOps.lean ====
section
/-! DEFINITION. Ethernet ports: Glade flows and packets, receive rings, device memory through a flow, and frame streams (R371 to R390,
R353, R345). -/
namespace Sys2Proof.Machine

/-! ## Keys and packets -/

/-- The bytes of an ASCII string. -/
def ascii (x : String) : List Byte := x.toList.map fun c => BitVec.ofNat 8 c.toNat

/-- A key of a session (Table 19.5). -/
def Session.key (x : Session) (info : List Byte) (n : Nat) : List Byte := Config.hkdfExpand x.root info n

/-- The Glade key and salt of a flow in a direction: 0 from the peer, 1 to the peer (Table 19.5). -/
def State.gladeKey (s : State) (e n dir : Nat) : Option (List Byte × List Byte) :=
  (s.session (sget {} (s.eth e).flows n).session).map fun x =>
    let k := x.key (ascii "gq glade" ++ le 1 e ++ le 1 n ++ le 1 dir) 36
    (k.take 32, k.drop 32)

/-- The 96-bit nonce of a packet (R376). -/
def gladeNonce (salt : List Byte) (type no : Nat) : List Byte := salt ++ le 8 (if type = 1 then 2 ^ 63 + no else no)

/-- Free entries of a flow's receive ring. -/
def Flow.free (f : Flow) : Nat := 2 ^ f.ringLog - (f.ring.map (·.entries)).foldl (· + ·) 0

/-- ACK_NO: the highest packet received in order whose writes are all acknowledged (R377). -/
def Eth.ackNo (x : Eth) (n : Nat) : Nat :=
  (x.writes.filter fun w => decide (w.flow = n ∧ w.pktNo ≠ 0)).foldl (fun m w => min m (w.pktNo - 1)) (sget {} x.flows n).rxNo

/-- A Glade packet of flow n: its header, its encrypted items and its tag (R376, Table 16.2). -/
def State.gladePacket (s : State) (e n type no : Nat) (items : List Byte) : List Byte :=
  let x := s.eth e
  let hdr := le 1 1 ++ le 1 type ++ le 2 n ++ le 4 (sget {} x.flows n).free ++ le 8 no ++ le 8 (x.ackNo n) ++ le 8 0
  match s.gladeKey e n 1 with
  | some (k, salt) => hdr ++ Config.gcmSeal k (gladeNonce salt type no) hdr items
  | none => hdr ++ items

/-- The state with a flow changed. -/
def State.modFlow (s : State) (e n : Nat) (f : Flow → Flow) : State := s.modEth e fun x => x.modFlow n f

/-- The state with a frame stream changed. -/
def State.modStream (s : State) (e st : Nat) (f : FStream → FStream) : State :=
  s.modEth e fun x => { x with streams := smod {} x.streams st f }

/-- An ACK sent on a flow (R377). -/
def State.sendAck (s : State) (e n : Nat) : State :=
  let f := sget {} (s.eth e).flows n
  let p := s.gladePacket e n 1 f.ackCnt []
  (s.modFlow e n fun f => { f with ackCnt := f.ackCnt + 1 }).modEth e fun x => { x with tx := p }

/-- Ports and flows: operand 256 · port + flow. -/
def flowOk (k : Nat) : Bool := decide (k < 8 * 256)

/-- Whether a port block works: its die is up, it has a rate and its link is up. -/
def State.ethUp (s : State) (e : Nat) : Bool := s.dieUp (ethDie e) && (s.eth e).link && decide ((s.eth e).rate ≠ 0)

/-! ## Opening and closing -/

/-- FLOW_OPEN, OBJ 0 (R371 to R373): RATE 0 holds the lanes in reset. -/
def execFlowOpenPort (pair : Nat) (s : State) : Out :=
  cmdRow pair (fun c => decide (c.opcode = 0x0B ∧ c.n 8 1 % 4 = 0)) (fun c s =>
    ((s.modEth c.port fun x =>
      { x with rate := BitVec.ofNat 2 (c.n 10 1), rtoLog := c.n 11 1, mac := (c.entry.drop 36).take 6, ip6 := (c.entry.drop 44).take 16,
               ip4 := (c.entry.drop 60).take 4, link := x.link && decide (c.n 10 1 ≠ 0) }).extend c.entry).finish c 0 0) s

/-- FLOW_OPEN, OBJ 1 (R373, R449). -/
def execFlowOpenFlow (pair : Nat) (s : State) : Out :=
  cmdRow pair (fun c => decide (c.opcode = 0x0B ∧ c.n 8 1 % 4 = 1)) (fun c s =>
    let n := c.n 9 1
    ((s.modEth c.port fun x =>
      { x with
        seqs := (sget {} x.flows n).pairs.foldl (fun m k => sset 0 m k 0) x.seqs
        flows := sset {} x.flows n
          { open_ := true, session := c.session, ipv4 := decide (c.n 8 1 / 32 % 2 = 1), udp := c.n 12 2, ringLog := c.n 14 1,
            ringBase := c.n 16 8, winBase := c.n 24 8, winUnits := c.n 32 4, mac := (c.entry.drop 36).take 6,
            ip := (c.entry.drop 44).take 16 } }).extend c.entry).finish c 0 0) s

/-- The status block of a port, with the counts of stream st (Table 16.7). -/
def Eth.block (x : Eth) (st : Nat) : List Byte :=
  let y := sget {} x.streams st
  let word := fun (k : Nat) =>
    let z : FStream := sget {} x.streams k
    le 1 z.frames.length ++ le 1 (z.frames.filter (·.started)).length ++ le 2 (min z.run 0xFFFF) ++ le 4 0
  le 4 (x.rate.toNat + 4 * b2n x.link) ++ le 4 0 ++ bytesOf 8 x.rxOther ++ bytesOf 8 x.authFail ++ bytesOf 8 x.retx
    ++ bytesOf 8 x.rxRefused ++ bytesOf 8 x.itemErr ++ bytesOf 4 y.admitted ++ bytesOf 4 y.shed ++ bytesOf 4 y.replaced
    ++ bytesOf 4 y.stale ++ bytesOf 4 y.doneErr ++ List.replicate 60 0 ++ (List.range 16).flatMap word

/-- FLOW_OPEN, OBJ 2 (R390). -/
def execFlowOpenStat (pair : Nat) (s : State) : Out :=
  cmdRow pair (fun c => decide (c.opcode = 0x0B ∧ c.n 8 1 % 4 = 2)) (fun c s =>
    let s1 := s.extend c.entry
    s1.withHost c fun s1 => (s1.hostWrite (c.n 16 8) ((s1.eth c.port).block (c.n 9 1))).finish c 0 0) s

/-- The reject of a core message at a port (R270). -/
def rejectOf : Body → Option Body
  | .emsg _ se _ seq tag _ => some (.reject se seq tag .rejected)
  | .esig _ se _ seq tag _ => some (.reject se seq tag .rejected)
  | _ => none

/-- The acknowledgement of a core message at a port (R267). -/
def ackOf : Body → Option Body
  | .emsg _ se _ seq tag _ => some (.ack se seq tag)
  | .esig _ se _ seq tag _ => some (.ack se seq tag)
  | _ => none

/-- The flow and endpoint a core message is for. -/
def extTo : Body → Nat × Nat
  | .emsg n _ de _ _ _ => (n, de.toNat)
  | .esig n _ de _ _ _ => (n, de.toNat)
  | _ => (0, 0)

/-- Core messages answered at port e. -/
def State.answerMsgs (s : State) (e : Nat) (f : Body → Option Body) (ps : List Packet) : State :=
  ps.foldl (fun s p => match f p.body with
    | some b => s.fromPort (.eth e) p.src true 1 b
    | none => s) s

/-- RESUME sent to every half with a gap while the port has room (R269, R379). -/
def State.resumeGaps (s : State) (e : Nat) : State :=
  if 256 ≤ (s.eth e).holding then s
  else
    let due := (s.eth e).gaps.filter fun g => !g.resumed
    (due.foldl (fun s g => s.fromPort (.eth e) (.core g.core) true 1 (.resume g.ep g.seq g.tag)) s).modEth e fun x =>
      { x with gaps := x.gaps.map fun g => { g with resumed := true } }

/-- The outbound side of a flow discarded: its pending core messages complete as if rejected (R270, R374, R375). -/
def State.rejectPending (s : State) (e n : Nat) : State :=
  let x := s.eth e
  let mine := fun (p : Packet) => decide ((extTo p.body).1 = n ∧ (extTo p.body).2 < 16)
  let ps := ((sget {} x.flows n).unacked.flatMap (·.msgs)) ++ x.msgs.filter mine
  let s1 := s.modEth e fun x => { x.modFlow n fun f => { f with unacked := [], items := [], reads := [] } with
    msgs := x.msgs.filter fun p => !mine p }
  (s1.answerMsgs e rejectOf ps).resumeGaps e

/-- A flow closed by the module: one CLOSE packet, its pending traffic discarded (R374). -/
def State.closeFlow (s : State) (e n : Nat) : State :=
  let f := sget {} (s.eth e).flows n
  if !f.open_ then s
  else
    let p := s.gladePacket e n 2 f.txNo []
    ((s.modEth e fun x => { x with tx := p }).rejectPending e n).modEth e fun x =>
      { x with seqs := f.pairs.foldl (fun m k => sset 0 m k 0) x.seqs, recov := x.recov.filter fun k => k ∉ f.pairs
               flows := sset {} x.flows n { closed := true } }

/-- FLOW_CLOSE (R374). -/
def execFlowClose (pair : Nat) (s : State) : Out :=
  cmdRow pair (fun c => decide (c.opcode = 0x0C)) (fun c s => (s.closeFlow c.port (c.n 9 1)).finish c 0 0) s

/-! ## Receive rings -/

/-- The tail and the entries used after a record of n entries, its pad counted; none where it does not fit (R341, R381). -/
def Flow.step (f : Flow) (tail used n : Nat) : Option (Nat × Nat × Nat) :=
  let size := 2 ^ f.ringLog
  let pad := if tail + n ≤ size then 0 else size - tail
  if used + pad + n ≤ size then some (((tail + pad) % size + n) % size, used + pad + n, pad) else none

/-- Entries of a record whose body has a length (R381). -/
def entriesOf (len : Nat) : Nat := (8 + len + 15) / 16

/-- Whether records of these body lengths all fit a flow's ring; a record larger than the ring is not placed. -/
def Flow.fitsAll (f : Flow) : List Nat → Nat → Nat → Bool
  | [], _, _ => true
  | l :: ls, tail, used =>
    if 2 ^ f.ringLog < entriesOf l then f.fitsAll ls tail used
    else match f.step tail used (entriesOf l) with
      | some (t, u, _) => f.fitsAll ls t u
      | none => false

/-- The pieces of a device range by aligned 256-byte block: address and length. -/
def blockPieces (a n : Nat) : List (Nat × Nat) :=
  (blocksIn a n).map fun b => (max a (256 * b), min (a + n) (256 * b + 256) - max a (256 * b))

/-- A device write of a port block, in block pieces (R302, R382, R385). -/
def State.ethWrite (s : State) (e n pktNo item : Nat) (seg : Option (Nat × Nat)) (a : Nat) (bs : List Byte) : State :=
  (blockPieces a bs.length).foldl (fun s p =>
    match s.mapAddr p.1 with
    | .inl _ => s
    | .inr (m, _) =>
      let id := (s.eth e).nextId
      let s1 := s.modEth e fun x => { x with nextId := id + 1, writes := x.writes ++ [⟨id, n, pktNo, item, seg⟩] }
      s1.fromPort (.eth e) (.mem m) false p.2 (.dwrite id p.1 ((bs.drop (p.1 - a)).take p.2))) s

/-- A record placed in a flow's receive ring: written to device memory as requests of the port, behind a pad where it does not fit before the
ring's end, and delivered once they are acknowledged (R341, R381, R382). -/
def State.placeRec (s : State) (e n : Nat) (r : RxRec) (bytes : List Byte) : State :=
  let f := sget {} (s.eth e).flows n
  match f.step f.tail (2 ^ f.ringLog - f.free) r.entries with
  | none => s
  | some (t, _, pad) =>
    let at_ := (f.tail + pad) % 2 ^ f.ringLog
    let s1 := if pad = 0 then s else s.ethWrite e n r.pktNo r.item none (f.ringBase + 16 * f.tail) (padRec f.phase pad)
    let s2 := s1.ethWrite e n r.pktNo r.item none (f.ringBase + 16 * at_) bytes
    let id := (s2.eth e).nextId
    let r' := { r with id := id, after := id }
    let pads := if pad = 0 then [] else [{ r with id := id + 1, entries := pad, done := true }]
    (s2.modEth e fun x => { x with nextId := id + 2 }).modFlow e n fun f =>
      ({ f with ring := f.ring ++ pads ++ [r'], tail := t, phase := if t < f.tail then !f.phase else f.phase } : Flow).trim

/-- Whether every device write of a flow numbered below k has been acknowledged (R382). -/
def Eth.writtenTo (x : Eth) (n k : Nat) : Bool := !x.writes.any fun w => decide (w.flow = n ∧ w.id < k)

/-- RX_RING_DELIVER (R380, R382): the first record of flow 256 · port + flow that is not on its way. -/
def execRxRingDeliver (flow : Nat) (s : State) : Out :=
  guard (flowOk flow)
    (let e := flow / 256
     let n := flow % 256
     let x := s.eth e
     match (sget {} x.flows n).ring.find? fun r => !r.done && !r.sent with
     | none => s
     | some r =>
       if !s.dieUp (ethDie e) || decide (r.key ∈ x.recov) || !x.writtenTo n r.after then s
       else
         let q := r.seq.getD (sget 0 x.seqs r.key)
         let y := if r.seq.isSome then x else { x with seqs := sset 0 x.seqs r.key (q + 1) }
         let s1 := (s.modEth e fun _ => y).modFlow e n fun f =>
           { f with ring := f.ring.map fun z => if z.id = r.id then { z with sent := true, seq := some q } else z,
                    pairs := if r.key ∈ f.pairs then f.pairs else f.pairs ++ [r.key] }
         match r.sig with
         | some v => s1.fromPort (.eth e) (.core r.core) false 8 (.sig r.srcEp r.ep q r.id v 0)
         | none => s1.fromPort (.eth e) (.core r.core) false r.data.length (.msg r.srcEp r.ep q r.id r.data))

/-! ## Device memory through a flow -/

/-- The Glade status of a range that a port does not serve. -/
def rangeStatus (k : Nat) : Nat := if k = 6 then 9 else 0x0A

/-- MWRITE (R382). -/
def State.mwrite (s : State) (e n pktNo item off : Nat) (bs : List Byte) : State :=
  let f := sget {} (s.eth e).flows n
  if 4096 * f.winUnits < off + bs.length then s.modEth e fun x => x.sendErr n 1 item pktNo
  else match s.rangeFault (f.winBase + off) bs.length with
    | some k => s.modEth e fun x => x.sendErr n (rangeStatus k) item pktNo
    | none => s.ethWrite e n pktNo item none (f.winBase + off) bs

/-- MREAD (R382): it waits for its turn and for the writes before it. -/
def State.mread (s : State) (e n pktNo item req off len : Nat) : State :=
  let f := sget {} (s.eth e).flows n
  if 4096 * f.winUnits < off + len then s.modEth e fun x => x.sendErr n 1 item pktNo
  else s.modFlow e n fun f =>
    { f with reads := f.reads ++ [{ req := BitVec.ofNat 32 req, off := off, left := len, after := (s.eth e).nextId, pktNo := pktNo, item := item }] }

/-- The first MREAD of a flow ends with an ITEM_ERR. -/
def State.failRead (s : State) (e n : Nat) (m : MRead) (status : Nat) : State :=
  (s.modFlow e n fun f => { f with reads := f.reads.drop 1 }).modEth e fun x => x.sendErr n status m.item m.pktNo

/-- The bytes of the pieces landed, from the lowest offset. -/
def MRead.bytes (m : MRead) : List Byte := prefixFrom m.off (m.got.foldl (fun l p => addPiece p l) [])

/-- MREAD_REPLY (R382): the oldest MREAD of a flow reads its next part, or, all of it landed, answers with an MRDATA item. -/
def execMreadReply (flow : Nat) (s : State) : Out :=
  guard (flowOk flow)
    (let e := flow / 256
     let n := flow % 256
     let x := s.eth e
     let f := sget {} x.flows n
     match f.reads with
     | [] => s
     | m :: rest =>
       if !s.dieUp (ethDie e) || !x.writtenTo n m.after then s
       else if m.part = 0 then
         let k := min 8192 m.left
         match s.rangeFault (f.winBase + m.off) k with
         | some r => s.failRead e n m (rangeStatus r)
         | none =>
           let s1 := s.modFlow e n fun f => { f with reads := { m with part := k } :: rest }
           (blockPieces (f.winBase + m.off) k).foldl (fun s p =>
             match s.mapAddr p.1 with
             | .inl _ => s
             | .inr (q, _) =>
               let id := (s.eth e).nextId
               ((s.modEth e fun x => { x with nextId := id + 1 }).modFlow e n fun f =>
                 { f with reads := match f.reads with
                            | m :: rest => { m with wait := m.wait ++ [(id, p.1 - f.winBase)] } :: rest
                            | [] => [] }).fromPort (.eth e) (.mem q) false 1 (.dread id p.1 p.2)) s1
       else if !m.wait.isEmpty then s
       else if m.bad ≠ 0 then s.failRead e n m (if m.bad = 4 then 0x0A else 0x0C)
       else
         let item := le 1 5 ++ le 1 0 ++ le 2 (8 + m.part) ++ bytesOf 4 m.req ++ le 8 m.off ++ m.bytes.take m.part
         let pad := (8 - m.part % 8) % 8
         s.modFlow e n fun f =>
           { f with items := f.items ++ [item ++ List.replicate pad 0]
                    reads := if m.left ≤ m.part then rest
                      else { m with off := m.off + m.part, left := m.left - m.part, part := 0, got := [] } :: rest })

/-! ## Frame streams -/

/-- FRAME_OPEN (R383). -/
def execFrameOpen (pair : Nat) (s : State) : Out :=
  cmdRow pair (fun c => decide (c.opcode = 0x09)) (fun c s =>
    (s.modStream (c.n 8 1 % 8) (c.n 8 1 / 8 % 16) fun _ =>
      { open_ := true, flow := c.n 9 1, depth := c.n 10 1, replace := decide (c.n 11 1 % 2 = 1), pipe := c.n 11 1 / 2,
        overrun := if c.n 12 1 = 0 then 64 else c.n 12 1, cq := c.n 13 1, stand := c.n 14 2, base := c.n 16 8, units := c.n 24 4,
        size := c.n 28 4, core := c.n 32 4, ep := BitVec.ofNat 5 (c.n 36 1), mask := BitVec.ofNat 16 (c.n 38 2) }).finish c 0 0) s

/-- The four snapshot sums of delta entry l over a stand, and LAST_KEY (R224, R353). -/
def State.standSums (s : State) (n l : Nat) : List Nat × Bool :=
  let ws := (s.stand n).cores
  let entry := fun (w : Nat) => sget {} (s.core w).f.dl.layers l
  (([0, 1, 2, 3].map fun i => min 0xFFFFFFFF ((ws.map fun w => (sget 0 (entry w).snap i).toNat).foldl (· + ·) 0)),
    ws.any fun w => (entry w).lastKey)

/-- A FRAME record of a stream; discarded where the pair's ring is disabled, and, for SHED, folded into the pending count where it
finds no room (R345, R347, R353, R387, R458, Table 14.8). -/
def State.frameRec (s : State) (e st status no : Nat) : State :=
  let y := sget {} (s.eth e).streams st
  let q := (s.pair y.cq).cq
  let open_ : Bool := match s.session (s.stand y.stand).session with
    | some x => x.relCounts
    | none => decide ((s.stand y.stand).session = 0)
  let mask := if status = 0 && open_ then y.mask else 0
  let sums := (bitsOf 16 mask.toNat).map fun l => (l, s.standSums y.stand l)
  let keys := (sums.map fun p => if p.2.2 then 2 ^ p.1 else 0).foldl (· + ·) 0
  let len := 2 + sums.length
  if !q.en then s
  else if status = 0x15 ∧ !Ring.fitsAll (q.wait.map (·.len) ++ [len]) q then s.modStream e st fun y => { y with since := y.since + 1 }
  else
    s.produce y.cq { type := 3, status := status, len := len,
                     body := le 8 no ++ le 2 (16 * e + st) ++ le 2 0 ++ le 2 mask.toNat ++ le 2 keys ++ le 2 y.stand ++ le 6 0
                       ++ (sums.flatMap fun p => p.2.1.flatMap (le 4)) }

/-- A frame shed: its counts, its record, and an OVERRUN event at each full run (R384, R387, R388). -/
def State.shed (s : State) (e st no : Nat) : State :=
  let s1 := (s.modStream e st fun y => { y with shed := satAdd y.shed 1, run := y.run + 1 }).frameRec e st 0x15 no
  let y := sget {} (s1.eth e).streams st
  if y.run % y.overrun = 0 then
    s1.post { type := 0x22, len := 2, body := le 2 (16 * e + st) ++ le 2 (min y.run 0xFFFF) ++ le 4 0 ++ le 8 no ++ le 8 y.shed.toNat }
  else s1

/-- A frame ends with ABORTED and frees its slot (R385, R387). -/
def State.abortFrame (s : State) (e st no : Nat) : State :=
  (s.modStream e st fun y => { y with frames := y.frames.filter fun f => !decide (f.no = no) }).frameRec e st 0x11 no

/-- The frames of a stream that have not started end with ABORTED, and its admission stops (R375, R389). -/
def State.stopStream (s : State) (e st : Nat) : State :=
  let fs := (sget {} (s.eth e).streams st).frames.filter fun f => !f.started
  (fs.foldl (fun s f => s.abortFrame e st f.no) s).modStream e st fun y => { y with stopped := true }

/-- A stream closed: its flow's number is free again, and the FRAME_CLOSEs that waited complete (R375, R389). -/
def State.closeStream (s : State) (e st : Nat) : State :=
  let y := sget {} (s.eth e).streams st
  let s1 := (s.modStream e st fun y => { y with open_ := false, frames := [], ending := false, closing := [] }).modFlow e y.flow fun f =>
    { f with peerClosed := false }
  y.closing.foldl (fun s c => s.finish c 0 0) s1

/-- FRAME_CLOSE (R389). -/
def execFrameClose (pair : Nat) (s : State) : Out :=
  cmdRow pair (fun c => decide (c.opcode = 0x0A)) (fun c s =>
    let e := c.n 8 1 % 8
    let st := c.n 8 1 / 8 % 16
    let s1 := (s.stopStream e st).modStream e st fun y => { y with ending := true, closing := y.closing ++ [c] }
    if (sget {} (s1.eth e).streams st).frames.isEmpty then s1.closeStream e st else s1) s

/-- The lowest free slot of a stream. -/
def FStream.freeSlot (y : FStream) : Nat :=
  ((List.range y.depth).find? fun k => !y.frames.any fun f => decide (f.slot = k)).getD 0

/-- A new frame: admitted to a free slot, in place of the youngest frame not started, or shed (R384, R388). -/
def State.newFrame (s : State) (e st no : Nat) : State :=
  let s1 := s.modStream e st fun y => { y with newest := some no }
  let y := sget {} (s1.eth e).streams st
  let enter : Nat → FStream → FStream := fun k y => { y with frames := y.frames ++ [{ no := no, slot := k }], admitted := satAdd y.admitted 1 }
  if y.frames.length < y.depth then s1.modStream e st fun y => { enter y.freeSlot y with run := 0 }
  else match if y.replace then (y.frames.filter fun f => !f.started).getLast? else none with
    | some g =>
      ((s1.modStream e st fun y => { y with frames := y.frames.filter fun f => !decide (f.no = g.no) }).shed e st g.no).modStream e st
        fun y => { enter g.slot y with replaced := satAdd y.replaced 1 }
    | none => s1.shed e st no

/-- A segment of a live frame: written to its slot, or its frame aborted (R385). -/
def State.segment (s : State) (e n st pktNo item no off : Nat) (bs : List Byte) : State :=
  let y := sget {} (s.eth e).streams st
  match y.frames.find? fun f => decide (f.no = no) with
  | none => s
  | some f =>
    if y.size < off + bs.length then (s.abortFrame e st no).modEth e fun x => x.sendErr n 1 item pktNo
    else
      let a := y.base + 4096 * y.units * f.slot + off
      match s.rangeFault a bs.length with
      | some k => s.modEth e fun x => x.sendErr n (rangeStatus k) item pktNo
      | none =>
        let s1 := s.ethWrite e n pktNo item (some (st, no)) a bs
        let ids := ((s1.eth e).writes.filter fun w => decide ((s.eth e).nextId ≤ w.id)).map (·.id)
        s1.modStream e st fun y => { y with frames := y.frames.map fun g =>
          if g.no = no then { g with bytes := g.bytes + bs.length, writes := g.writes ++ ids } else g }

/-- FSEG (R384, R389): once a FRAME_CLOSE has stopped a stream, its segments are stale, after it has closed too. -/
def State.fseg (s : State) (e n pktNo item st no off : Nat) (bs : List Byte) : State :=
  let y := sget {} (s.eth e).streams st
  let stale := s.modStream e st fun y => { y with stale := satAdd y.stale 1 }
  if y.flow ≠ n ∨ (!y.open_ ∧ !y.stopped) then s.modEth e fun x => x.sendErr n 5 item pktNo
  else if y.stopped then stale
  else if y.frames.any fun f => decide (f.no = no) then s.segment e n st pktNo item no off bs
  else match y.newest with
    | some m => if no ≤ m then stale else (s.newFrame e st no).segment e n st pktNo item no off bs
    | none => (s.newFrame e st no).segment e n st pktNo item no off bs

/-- The frame stream bound to a flow. -/
def Eth.boundTo (x : Eth) (n : Nat) : Option Nat := (x.streams.find? fun p => p.2.open_ && decide (p.2.flow = n)).map (·.1)

/-- FRAME_START (R385): the first frame of the flow's stream that has not started, where it may. -/
def execFrameStart (flow : Nat) (s : State) : Out :=
  guard (flowOk flow)
    (let e := flow / 256
     let n := flow % 256
     let x := s.eth e
     match x.boundTo n with
     | none => s
     | some st =>
       let y := sget {} x.streams st
       match y.frames.find? fun f => !f.started with
       | none => s
       | some f =>
         let fl := sget {} x.flows n
         if f.bytes ≠ y.size ∨ !f.writes.isEmpty ∨ y.pipe ≤ (y.frames.filter (·.started)).length ∨ !fl.open_
             ∨ (fl.step fl.tail (2 ^ fl.ringLog - fl.free) 2).isNone then s
         else
           let body := le 8 f.no ++ le 8 (y.base + 4096 * y.units * f.slot) ++ le 4 y.size ++ le 1 f.slot ++ List.replicate 11 0
           let r : RxRec := { id := 0, entries := 2, core := y.core, ep := y.ep, srcEp := BitVec.ofNat 5 (16 + st), data := body,
                              sig := none, pktNo := 0, item := 0, after := 0 }
           (s.placeRec e n r body).modStream e st fun y =>
             { y with frames := y.frames.map fun g => if g.no = f.no then { g with started := true } else g })

/-- Frames done, oldest first (R386, R387). -/
def State.framesDone (e st : Nat) : List Frame → State → State
  | [], s => s
  | f :: fs, s =>
    State.framesDone e st fs
      ((s.modStream e st fun y => { y with frames := y.frames.filter fun g => !decide (g.no = f.no) }).frameRec e st 0x00 f.no)

/-- FRAME_DONE (R386, R387): the oldest done signal of the flow. -/
def execFrameDone (flow : Nat) (s : State) : Out :=
  guard (flowOk flow)
    (let e := flow / 256
     let n := flow % 256
     let x := s.eth e
     match x.msgs.find? fun p => decide ((extTo p.body).1 = n ∧ 16 ≤ (extTo p.body).2) with
     | none => s
     | some p =>
       match p.body with
       | .esig _ _ de _ _ v =>
         let st := de.toNat - 16
         let y := sget {} x.streams st
         let fs := (y.frames.filter (·.started)).take v.toNat
         let s1 := (s.modEth e fun x => { x with msgs := x.msgs.erase p }).answerMsgs e ackOf [p]
         let s2 := (State.framesDone e st fs s1).modStream e st fun y => { y with doneErr := satAdd y.doneErr (v.toNat - fs.length) }
         let s3 := if y.ending && (sget {} (s2.eth e).streams st).frames.isEmpty then s2.closeStream e st else s2
         s3.resumeGaps e
       | _ => s)

/-! ## Packets received -/

/-- An item of a packet (R378): ITYPE, the reserved byte, header bytes 4 to 7, its body, and whether the packet ends before it does. -/
structure Item where
  type : Nat
  res : Nat
  f : Nat
  body : List Byte
  cut : Bool
  deriving DecidableEq, Repr

/-- The items of a packet's plaintext. -/
def itemsOf : Nat → List Byte → List Item
  | 0, _ => []
  | n + 1, bs =>
    if bs.length < 8 then []
    else
      let len := natOfBytes ((bs.drop 2).take 2)
      let body := (bs.drop 8).take len
      ⟨natOfBytes (bs.take 1), natOfBytes ((bs.drop 1).take 1), natOfBytes ((bs.drop 4).take 4), body, decide (body.length < len)⟩
        :: itemsOf n (bs.drop (8 + (len + 7) / 8 * 8))

/-- Bytes lo on, n of them, of an item's body as a number. -/
def Item.n (x : Item) (lo n : Nat) : Nat := natOfBytes ((x.body.drop lo).take n)

/-- The status that refuses an item for its form (R20, R378, Table 16.3). -/
def Item.bad (x : Item) : Option Nat :=
  let l := x.body.length
  let core := decide (x.f < 2 ^ 27)
  let ok : Bool := !x.cut && decide (x.res = 0) && match x.type with
    | 1 => decide (8 ≤ l ∧ l ≤ 64 ∧ l % 8 = 0) && core
    | 2 => decide (l = 8 ∧ x.n 4 4 = 0) && core
    | 3 => decide (16 ≤ l ∧ l ≤ 8200 ∧ l % 8 = 0)
    | 4 => decide (l = 16 ∧ 8 ≤ x.n 8 4 ∧ x.n 8 4 ≤ 65536 ∧ x.n 8 4 % 8 = 0 ∧ x.n 12 4 = 0)
    | 6 => decide (24 ≤ l ∧ l ≤ 8208 ∧ x.n 12 4 = 0)
    | 7 => decide (l = 8)
    | _ => false
  if !ok then some 4
  else if decide (x.type = 1 ∨ x.type = 2) && !coordOk x.f then some 2
  else none

/-- The body length of an item that takes ring entries. -/
def Item.ringLen (x : Item) : Option Nat := if x.bad.isNone ∧ (x.type = 1 ∨ x.type = 2) then some x.body.length else none

/-- A MSG or SIG item placed in the ring, or refused as larger than it (R342, R380, R381). -/
def State.placeItem (s : State) (e n pktNo i : Nat) (x : Item) : State :=
  let f := sget {} (s.eth e).flows n
  if 2 ^ f.ringLog < entriesOf x.body.length then
    s.modEth e fun y => let z := y.sendErr n 1 i pktNo; { z with rxRefused := z.rxRefused + 1 }
  else
    let hdr := le 1 x.type ++ le 1 0 ++ le 2 x.body.length ++ le 4 x.f
    s.placeRec e n
      { id := 0, entries := entriesOf x.body.length, core := x.f % 2 ^ 18, ep := BitVec.ofNat 5 (x.f / 2 ^ 18),
        srcEp := BitVec.ofNat 5 (x.f / 2 ^ 23 % 16), data := x.body,
        sig := if x.type = 2 then some (BitVec.ofNat 32 (x.n 0 4)) else none, pktNo := pktNo, item := i, after := 0 } (hdr ++ x.body)

/-- An item of an accepted packet (R378, R382, R384). -/
def State.takeItem (s : State) (e n pktNo i : Nat) (x : Item) : State :=
  match x.bad with
  | some st => s.modEth e fun y => y.sendErr n st i pktNo
  | none => match x.type with
    | 3 => s.mwrite e n pktNo i (x.n 0 8) (x.body.drop 8)
    | 4 => s.mread e n pktNo i x.f (x.n 0 8) (x.n 8 4)
    | 6 => s.fseg e n pktNo i (x.f % 16) (x.n 0 8) (x.n 8 4) (x.body.drop 16)
    | 7 => s
    | _ => s.placeItem e n pktNo i x

/-- The items of an accepted packet in order. -/
def State.takeItems (e n pktNo : Nat) : List Item → Nat → State → State
  | [], _, s => s
  | x :: xs, i, s => State.takeItems e n pktNo xs (i + 1) (s.takeItem e n pktNo i x)

/-- Packets up to a number acknowledged by the peer: freed, and the messages they carried acknowledged to their cores (R377, R379). -/
def State.ackUpTo (s : State) (e n no window : Nat) : State :=
  let f := sget {} (s.eth e).flows n
  let done := f.unacked.filter fun p => decide (p.no ≤ no)
  ((s.modFlow e n fun f => { f with peerWin := window, unacked := f.unacked.filter fun p => !decide (p.no ≤ no) }).answerMsgs e ackOf
    (done.flatMap (·.msgs))).resumeGaps e

/-- Bytes lo on, n of them, of a byte string as a number. -/
def field (bs : List Byte) (lo n : Nat) : Nat := natOfBytes ((bs.drop lo).take n)

/-- The bytes of the Ethernet frame around a datagram of n bytes: its header and check sequence, the IP and UDP headers. -/
def frameLen (dst : List Byte) (n : Nat) : Nat := 18 + (if dst.length = 4 then 20 else 40) + 8 + n

/-- Whether a datagram to an address and a UDP port is for an open flow: a frame of at most 9,216 bytes, the port's own address in the flow's
version of IP, the flow's UDP port (R371). -/
def Eth.isFor (x : Eth) (fl : Flow) (dst : List Byte) (udp len : Nat) : Bool :=
  fl.open_ && decide (fl.udp = udp ∧ dst = if fl.ipv4 then x.ip4 else x.ip6) && decide (frameLen dst len ≤ 9216)

/-- A packet of a type received at port e, to an address and a UDP port: discarded where no flow is open for it or its tag fails, otherwise
taken by f with its flow and plaintext (R371, R376). -/
def State.receive (s : State) (e type : Nat) (d : Datagram) (f : Nat → List Byte → State → State) : State :=
  let pkt := d.bytes
  let n := field pkt 2 2
  let fl := sget {} (s.eth e).flows n
  if !s.ethUp e then s
  else if !(s.eth e).isFor fl d.dst d.udp pkt.length then s.modEth e fun x => { x with rxOther := x.rxOther + 1 }
  else if field pkt 1 1 ≠ type then s
  else
    let body := pkt.drop 32
    let bad := s.modEth e fun x => { x with authFail := x.authFail + 1 }
    match s.gladeKey e n 0 with
    | none => bad
    | some (k, salt) =>
      match Config.gcmOpen k (gladeNonce salt type (field pkt 8 8)) (pkt.take 32) (body.take (body.length - 16))
          (body.drop (body.length - 16)) with
      | none => bad
      | some items => f n items s

/-- GLADE_PACKET_RECEIVE (R371, R376 to R378, R381, R384): a DATA packet, as its destination address and UDP port and the bytes of its
datagram. -/
def execGladePacketReceive (port : Nat) (d : Datagram) (s : State) : Out :=
  guard (decide (port < 8)) (s.receive port 0 d fun n bytes s =>
    let f := sget {} (s.eth port).flows n
    let no := field d.bytes 8 8
    let xs := itemsOf bytes.length bytes
    if no ≠ f.rxNo + 1 then s.sendAck port n
    else if !f.fitsAll (xs.filterMap Item.ringLen) f.tail (2 ^ f.ringLog - f.free) then s
    else
      let s1 := (s.modFlow port n fun f => { f with rxNo := no }).ackUpTo port n (field d.bytes 16 8) (field d.bytes 4 4)
      (State.takeItems port n no xs 0 s1).sendAck port n)

/-- GLADE_ACK_RECEIVE (R371, R377, R379). -/
def execGladeAckReceive (port : Nat) (d : Datagram) (s : State) : Out :=
  guard (decide (port < 8)) (s.receive port 1 d fun n _ s => s.ackUpTo port n (field d.bytes 16 8) (field d.bytes 4 4))

/-- The ACK that covers the peer's CLOSE, once the writes of the packets before it are acknowledged (R375, R377). -/
def State.ackClose (s : State) (e n : Nat) : State :=
  let f := sget {} (s.eth e).flows n
  if f.closeNo ≠ 0 ∧ f.closeNo ≤ (s.eth e).ackNo n then (s.sendAck e n).modFlow e n fun f => { f with closeNo := 0 } else s

/-- GLADE_PEER_CLOSE (R371, R375). -/
def execGladePeerClose (port : Nat) (d : Datagram) (s : State) : Out :=
  guard (decide (port < 8)) (s.receive port 2 d fun n _ s =>
    let f := sget {} (s.eth port).flows n
    let no := field d.bytes 8 8
    if no ≠ f.rxNo + 1 then s.sendAck port n
    else
      let s0 := (s.modFlow port n fun f => { f with rxNo := no, closeNo := no }).ackUpTo port n (field d.bytes 16 8) (field d.bytes 4 4)
      let s1 := (s0.ackClose port n).rejectPending port n
      let b := (s1.eth port).boundTo n
      let s2 := s1.modFlow port n fun f => { f with open_ := false, closed := true, peerClosed := b.isSome }
      let s3 := match b with
        | some st => s2.stopStream port st
        | none => s2
      s3.post { type := 0x24, body := le 1 port ++ le 1 n ++ le 1 1 ++ le 5 0 })

/-- ETH_RX_OTHER (R371): an ARP request or a neighbour solicitation for the port is answered; any other frame is counted. -/
def execEthRxOther (port : Nat) (frame : List Byte) (s : State) : Out :=
  guard (decide (port < 8))
    (let x := s.eth port
     if !s.ethUp port then s
     else match if 9216 < frame.length then none else Config.neighbourReply x.mac x.ip4 x.ip6 frame with
       | some r => s.modEth port fun x => { x with tx := r }
       | none => s.modEth port fun x => { x with rxOther := x.rxOther + 1 })

/-! ## Packets sent -/

/-- Ring entries that unacknowledged items of a flow may take at the peer: five for each (R377). -/
def Flow.inFlight (f : Flow) : Nat := 5 * (f.unacked.map fun p => p.msgs.length).foldl (· + ·) 0

/-- A core message as an item (Table 16.3): the core word and endpoint name the source. -/
def itemOfMsg (p : Packet) : List Byte :=
  let hdr := fun (type len : Nat) (se de : BitVec 5) =>
    le 1 type ++ le 1 0 ++ le 2 len ++ le 4 (firstCore p.src + 2 ^ 18 * se.toNat + 2 ^ 23 * de.toNat)
  match p.body with
  | .emsg _ se de _ _ data => hdr 1 data.length se de ++ data
  | .esig _ se de _ _ v => hdr 2 8 se de ++ bytesOf 4 v ++ le 4 0
  | _ => []

/-- Items put into a packet of at most 8,960 bytes: those taken, and those left. -/
def takeItemsUpTo : List (List Byte) → Nat → List (List Byte) × List (List Byte)
  | [], _ => ([], [])
  | x :: xs, room => if x.length ≤ room then let (a, b) := takeItemsUpTo xs (room - x.length); (x :: a, b) else ([], x :: xs)

/-- Core messages put into a packet behind its other items, while the peer's window covers them (R377, R379). -/
def takeMsgsUpTo : List Packet → Nat → Nat → List Packet
  | [], _, _ => []
  | p :: ps, room, win =>
    let n := (itemOfMsg p).length
    if n ≤ room ∧ 5 ≤ win then p :: takeMsgsUpTo ps (room - n) (win - 5) else []

/-- GLADE_PACKET_SEND (R376 to R379, R390): the next DATA packet of flow 256 · port + flow. -/
def execGladePacketSend (flow : Nat) (s : State) : Out :=
  guard (flowOk flow)
    (let e := flow / 256
     let n := flow % 256
     let x := s.eth e
     let f := sget {} x.flows n
     let (items, left) := takeItemsUpTo f.items 8960
     let used := (items.map List.length).foldl (· + ·) 0
     let mine := x.msgs.filter fun p => decide ((extTo p.body).1 = n ∧ (extTo p.body).2 < 16)
     let msgs := if left.isEmpty then takeMsgsUpTo mine (8960 - used) (f.peerWin - f.inFlight) else []
     if !s.ethUp e || !f.open_ || decide (256 ≤ f.unacked.length) || (items.isEmpty && msgs.isEmpty) then s
     else
       let bytes := s.gladePacket e n 0 f.txNo (items.flatten ++ msgs.flatMap itemOfMsg)
       let errs := (items.filter fun i => decide (field i 0 1 = 7)).length
       (s.modEth e fun x => { x with tx := bytes, msgs := x.msgs.filter fun p => !decide (p ∈ msgs)
                                     itemErr := x.itemErr + BitVec.ofNat 64 errs }).modFlow e n fun f =>
         { f with txNo := f.txNo + 1, items := left, unacked := f.unacked ++ [⟨f.txNo, bytes, msgs⟩] })

/-- GLADE_RETRANSMIT (R377): every unacknowledged packet of the flow is sent again, in order. -/
def execGladeRetransmit (flow : Nat) (s : State) : Out :=
  guard (flowOk flow)
    (let e := flow / 256
     let f := sget {} (s.eth e).flows (flow % 256)
     if !s.ethUp e then s
     else match f.unacked.getLast? with
       | none => s
       | some p => s.modEth e fun x => { x with tx := p.bytes, retx := x.retx + BitVec.ofNat 64 f.unacked.length })

/-! ## Acknowledgements and links -/

/-- PORT_BLOCK_WRITE_ACK_LAND (R377, R382, R385): the first acknowledgement that has reached the port block. -/
def execPortBlockWriteAckLand (port : Nat) (s : State) : Out :=
  guard (decide (port < 8))
    (match (s.eth port).acks with
     | [] => s
     | (id, fault) :: rest =>
       let s1 := s.modEth port fun x => { x with acks := rest }
       match (s.eth port).writes.find? fun w => decide (w.id = id) with
       | none => s1
       | some w =>
         let before := (s.eth port).ackNo w.flow
         let s2 := s1.modEth port fun x => { x with writes := x.writes.filter fun v => !decide (v.id = id) }
         let s3 := if fault ≠ 0 then (if w.pktNo = 0 then s2 else s2.modEth port fun x => x.sendErr w.flow (if fault = 4 then 0x0A else 0x0C) w.item w.pktNo)
           else match w.seg with
             | some (st, no) => s2.modStream port st fun y => { y with frames := y.frames.map fun g =>
                 if g.no = no then { g with writes := g.writes.filter fun k => !decide (k = id) } else g }
             | none => s2
         if (sget {} (s3.eth port).flows w.flow).open_ ∧ before < (s3.eth port).ackNo w.flow then s3.sendAck port w.flow
         else s3.ackClose port w.flow)

/-- ETH_LINK_UP (R390). -/
def execEthLinkUp (port : Nat) (s : State) : Out :=
  guard (decide (port < 8)) (s.modEth port fun x => { x with link := decide (x.rate ≠ 0) })

/-- ETH_LINK_DOWN (R390). -/
def execEthLinkDown (port : Nat) (s : State) : Out := guard (decide (port < 8)) (s.modEth port fun x => { x with link := false })

end Sys2Proof.Machine
end

