-- ==== Sys2Proof/Machine/Service.lean ====
section
/-! DEFINITION. Clearings, fences, grove tests, lost cores, groves and dies, and what stewards do with notices (R18, R119, R129, R247,
R287, R298, R321, R322, R393, R405 to R411, R418 to R430, R434, R436 to R441). -/
namespace Sys2Proof.Machine

/-! ## Entering and leaving a clearing -/

/-- The deliveries held or waiting to land at the cores of a grove refused (R408, R427). -/
def State.flush (s : State) (g : Nat) (clr : Bool) : State :=
  (groveCores g).foldl (fun s w =>
    let t := (s.core w).t
    if t.inbox.isEmpty && t.held.isEmpty then s
    else (t.inbox ++ t.held).foldl (fun s p => s.refuseAt w p clr)
      (s.modCore w fun c => { c with t := { c.t with inbox := [], held := [] } })) s

/-- Every core of a grove with f applied. -/
def State.eachCore (s : State) (g : Nat) (f : Core → Core) : State := (groveCores g).foldl (fun s w => s.modCore w f) s

/-- Cause 13 (R111, R413): a merged occurrence adds one to MERGED. -/
def Core.raisePower (c : Core) (sinfo : Word) : Core :=
  let c1 : Core := if bitOf c.f.exc.pend 13 then { c with f := { c.f with dvfsMerged := satAdd c.f.dvfsMerged 1 } } else c
  c1.raiseAsync 13 sinfo 0

/-- The streams of a core, not closed, that have outstanding requests fail with CLEARED (R320, R409). -/
def Core.failStreams (c : Core) : Core :=
  (List.range 4).foldl (fun (c : Core) i =>
    let x := c.str i
    match x.out with
    | r :: _ => if x.st ≠ 4 then c.streamFault i r.chunk r.part 11 else c
    | [] => c) c

/-- What a core meets when its grove leaves LIGHT (R199, R409). -/
def Core.lightReturn (c : Core) : Core :=
  let c1 := c.t.lostAcks.foldl (fun (c : Core) id => c.landRwAck id 2) c.failStreams
  let c2 := (List.range 32).foldl (fun (c : Core) i =>
    if c.f.ch.pool.any fun m => !m.dbg && decide (m.ep.toNat = i) then c.setOut i { c.chOut i with errClr := true } else c) c1
  let c3 := if c.t.lostNow && c.enabled 0 then c2.raisePower 2 else c2
  { c3 with t := { c3.t with lostNow := false, lostAcks := [], idleCnt := 0 } }

/-- A thermal event of a grove (R405, R414). -/
def State.groveEvent (s : State) (kind g : Nat) : State :=
  s.thermal kind (some (dieOfGrove g)) g (temp16 (s.grove g).temp)

/-! ## Tests and codes -/

/-- A failing position of a grove test: row, physical position, 17 for the row's own signature, and what failed: 1 logic, 2 memory, 3
both (R422). -/
structure Fail where
  row : Nat
  pos : Nat
  logic : Bool
  memory : Bool
  deriving DecidableEq, Repr

/-- What the logic test of a grove has left in a signature register that is listed: 18 · row + position, and the signature. A register not
listed holds the expected signature (R419, R422; log 61). -/
abbrev Sigs := List (Nat × DWord)

/-- The expected signature of register 18 · row + position after P patterns (R422). -/
def State.expectedSig (s : State) (P p : Nat) : DWord :=
  if p % 18 = 17 then Config.rowSig else Config.coreSig (s.die s.leadDie).digest P

/-- The listed registers that do not hold what is expected. -/
def wrongSigs (expected : Nat → DWord) (l : Sigs) : List Nat := (l.filter fun p => decide (p.2 ≠ expected p.1)).map (·.1)

/-- The failing positions: those where memory BIST found a bad cell, and those of a wrong signature, each as 18 · row + position (R422). -/
def failsOf (memory logic : List Nat) : List Fail :=
  ((List.range (18 * 16)).filter fun p => decide (p ∈ memory ∨ p ∈ logic)).map fun p =>
    ⟨p / 18, p % 18, decide (p ∈ logic), decide (p ∈ memory)⟩

/-- The number of attachment ports of the tile that a physical position holds, by the logical core it carries (R420). -/
def tileClass (w : Nat) : Nat := (if (attachment w 0).isSome then 1 else 0) + (if (attachment w 1).isSome then 1 else 0)

/-- The expected trunk signature of register 18 · row + position of grove g at power-up, when every code is 16 (R420, R424). -/
def expectedTrunk (g p : Nat) : DWord := Config.trunkSig (if p % 18 < 16 then tileClass (coreAt g (p / 18) (p % 18)) else 0)

/-- The registers that a logic test of P patterns leaves: 64 shift cycles a pattern (R419). -/
def Grove.ranBist (x : Grove) (P : Nat) (expected : Nat → DWord) (l : Sigs) : Grove :=
  { x with lfsr := Config.lfsr (64 * P)
           sigs := (List.range (18 * 16)).map fun p => (p, ((l.find? fun q => decide (q.1 = p)).map (·.2)).getD (expected p)) }

/-- The failures that count: without a verified image, logic results of a position are not compared and set nothing (R422). -/
def countedFails (valid : Bool) (l : List Fail) : List Fail :=
  (l.map fun f => { f with logic := f.logic && (valid || decide (f.pos = 17)) }).filter fun f => f.logic || f.memory

/-- The failing physical positions of row r: those that fail and those retired (R425). -/
def Grove.badPositions (g : Grove) (l : List Fail) (r : Nat) : List Nat :=
  (List.range 17).filter fun k => (l.any fun f => decide (f.row = r ∧ f.pos = k)) || decide ((r, k) ∈ g.retired)

/-- The code a row takes after a test (R425). -/
def Grove.newCode (g : Grove) (l : List Fail) (r : Nat) : BitVec 5 :=
  if l.any fun f => decide (f.row = r ∧ f.pos = 17) then 31
  else match g.badPositions l r with
    | [] => 16
    | [p] => BitVec.ofNat 5 p
    | _ => 31

/-- The verdict of a test: 0 PASS, 1 REPAIRED, 2 UNAVAILABLE, 3 NOT_COMPARED (R430). -/
def Grove.verdict (g : Grove) (valid : Bool) (l : List Fail) : Nat :=
  if (List.range 16).any fun r => decide (g.newCode l r = 31) then 2
  else if (List.range 16).any fun r => !(g.badPositions l r).isEmpty then 1
  else if valid then 0 else 3

/-- FAIL_COUNT of a test (Table 18.3). -/
def Grove.failCount (g : Grove) (l : List Fail) : Nat :=
  min 255 (((List.range 16).map fun r => (g.badPositions l r).length).foldl (· + ·) 0)

/-- The rows whose code a test changes. -/
def Grove.changed (g : Grove) (l : List Fail) : Nat := ((List.range 16).filter fun r => decide (g.newCode l r ≠ g.code r)).length

/-- DETAIL of a test (R430). -/
def testDetail (verdict count rows : Nat) : Nat := verdict + 2 ^ 8 * count + 2 ^ 16 * rows

/-- A bit list of 34 bytes: bit 17r + k (Table 18.3). -/
def failBits (p : Nat → Nat → Bool) : List Byte :=
  le 34 (((List.range 16).flatMap fun r => (List.range 17).map fun k => if p r k then 2 ^ (17 * r + k) else 0).foldl (· + ·) 0)

/-- An entry of FAIL_LIST: the logical core word that a position carried under the row's code, then its physical core word. -/
def failEntry (g : Nat) (code r k : Nat) : List Byte :=
  let w0 := coreAt g r 0
  let logical := if 17 ≤ code ∨ k = code then 0xFFFFFFFF else coreAt g r (if k < code then k else k - 1)
  le 4 logical ++ le 4 (localX w0 / 16 * 17 + k + localY w0 * 2 ^ 7 + dieOf w0 * 2 ^ 14)

/-- The result block of a test (Table 18.3): x before it, codes after it. -/
def testBlock (g : Nat) (x : Grove) (verdict count : Nat) (code : Nat → BitVec 5) (l : List Fail) : List Byte :=
  let bad := (List.range 16).flatMap fun r => (x.badPositions l r).map fun k => (r, k)
  le 4 g ++ le 1 verdict ++ le 1 count ++ le 2 0 ++ ((List.range 16).flatMap fun r => le 1 (code r).toNat)
    ++ failBits (fun r k => l.any fun f => decide (f.row = r ∧ f.pos = k) && f.logic)
    ++ failBits (fun r k => l.any fun f => decide (f.row = r ∧ f.pos = k) && f.memory) ++ le 4 0
    ++ padTo 128 ((bad.take 16).flatMap fun p => failEntry g (x.code p.1).toNat p.1 p.2) ++ List.replicate 32 0

/-- Whether TEST or SERVICE asks for the result block. -/
def Cmd.wantsBlock (c : Cmd) : Bool := bitOf (BitVec.ofNat 8 (c.n 12 1)) 3

/-- A test's command completes, behind the block it asked for (R430). -/
def State.finishTest (s : State) (c : Cmd) (detail : Nat) (block : List Byte) : State :=
  if !c.wantsBlock then s.finish c 0 detail
  else s.withHost c fun s => (s.hostWrite (c.n 16 8) block).finish c 0 detail

/-- The report of a test that the lead asked for (R436, Table 18.6). -/
def State.reportTest (s : State) (g info : Nat) : State := s.report 9 (dieOfGrove g) 0 g 0 info 0 0 0

/-- A test ended by a clearing, or unable to run: verdict ABORTED, codes unchanged (R427, R430). -/
def State.abortTest (s : State) (r : TestReq) : State :=
  let x := s.grove r.grove
  let s1 := s.modGrove r.grove fun g => { g with tested := false }
  match r.cmd with
  | some c => s1.finishTest c 4 (testBlock r.grove x 4 0 x.code [])
  | none => s1.reportTest r.grove 4

/-- The next test runs unless its grove is not FENCED (R429). -/
def State.nextTest : Nat → State → State
  | 0, s => s
  | n + 1, s =>
    match s.lead.tests with
    | [] => s
    | r :: rest =>
      if (s.grove r.grove).state = 5 then s
      else State.nextTest n ((s.modLead fun l => { l with tests := rest }).abortTest r)

/-- A test queued; it runs at once where none runs (R429). -/
def State.queueTest (s : State) (r : TestReq) : State :=
  let s1 := s.modLead fun l => { l with tests := l.tests ++ [r] }
  State.nextTest s1.lead.tests.length s1

/-- The running test of a grove stopped by a clearing (R427). -/
def State.stopTest (s : State) (g : Nat) : State :=
  match s.lead.tests with
  | r :: rest =>
    if r.grove = g then
      let s1 := (s.modLead fun l => { l with tests := rest }).abortTest r
      State.nextTest s1.lead.tests.length s1
    else s
  | [] => s

/-- A grove enters LIGHT (R405, R409). -/
def State.enterLight (s : State) (g : Nat) : State :=
  let s1 := ((s.modGrove g fun x => { x with light := true, gated := false, cool := 0, selfTest := false }).eachCore g fun c =>
    { c with t := { c.t with lostNow := false, lostAcks := [] } }).flush g true
  ((s1.spadsGone g 7).stopTest g).groveEvent 4 g

/-- A grove leaves LIGHT (R405, R409). -/
def State.leaveLight (s : State) (g : Nat) : State :=
  ((s.modGrove g fun x => { x with light := false, cool := 0 }).eachCore g Core.lightReturn).groveEvent 5 g

/-- A grove enters DEEP (R405, R410, R411). -/
def State.enterDeep (s : State) (g : Nat) : State :=
  let s1 := ((s.modGrove g fun x =>
    { x with deep := true, light := false, gated := false, cool := 0, selfTest := false, wantStep := false }).eachCore g Core.initField).flush
      g true
  (((s1.spadsGone g 7).stopTest g).groveEvent 6 g).endRunsIn g 0x13 g 0

/-! ## Groves and dies lost -/

/-- Whether an attachment core of a port lies in grove g (R287): a memory port's lie in one grove, an external port's are four in a line
(Tables 01.5, 01.6). DESIGN CHOICE (log 17): one of the four is enough. -/
def gateIn (n : Node) (g : Nat) : Bool :=
  match extBase n with
  | none => decide (groveOf (firstCore n) = g)
  | some (x, y, vert) => (List.range 4).any fun k => decide (groveOf (if vert then wordXY x (y + k) else wordXY (x + k) y) = g)

/-- The requests that a port holds fail with UNAVAILABLE when it is lost or loses its mesh path (R287, R303). -/
def State.failPort (s : State) (m : Nat) (f : Port → Port) : State :=
  let p := s.port m
  let s1 := s.modPort m fun p => { f p with reqs := [], hostq := [], merge := [], snoop := [] }
  (p.reqs ++ p.hostq).foldl (fun s p =>
    let q : PReq := { p with placed := some (p.code 7, []) }
    let (b, _) := q.answer
    match p.src with
    | .core w => s.arrive w (mkPacket (.mem m) (.core w) false true 1 b)
    | .dma e => s.modEngine e fun x => x.take (mkPacket (.mem m) (.dma e) false true 1 b)
    | .eth e => s.modEth e fun x => x.answer b
    | .cxl => s.answerHost q
    | _ => s) s1

/-- The ports with an attachment core in an unavailable grove lose their mesh path (R287). -/
def State.cutPorts (s : State) (g : Nat) : State :=
  let s1 := (List.range 64).foldl (fun s m =>
    if gateIn (.mem m) g && !(s.port m).cut then s.failPort m fun p => { p with cut := true } else s) s
  let s2 := (List.range 8).foldl (fun s e => if gateIn (.eth e) g then
    s.modEth e fun x => { x with cut := true, rate := 0, link := false } else s) s1
  if gateIn .cxl g then { s2 with cxl := { s2.cxl with cut := true } } else s2

/-- A grove becomes unavailable: its deliveries are refused, the messages in its routers turn back, and its ports lose their mesh path (R18,
R285, R287). -/
def State.takeUnavail (s : State) (g : Nat) : State :=
  (((s.modGrove g fun x => { x with unavail := true }).flush g false).purge g true).cutPorts g

/-- A grove that the lead marks unavailable, with its GROVE_UNAVAILABLE report (R287, R426). -/
def State.makeUnavail (s : State) (g : Nat) : State := (s.takeUnavail g).report 10 (dieOfGrove g) 0 g 0 0 0 0 0

/-- Codes set after a test; a code of 31 makes the grove unavailable (R425, R426). -/
def State.setCodes (s : State) (g : Nat) (l : List Fail) : State :=
  let x := s.grove g
  let s1 := s.modGrove g fun y => { y with codes := (List.range 16).foldl (fun m r => sset 16 m r (x.newCode l r)) y.codes }
  if (List.range 16).any fun r => decide (x.newCode l r = 31) then s1.makeUnavail g else s1

/-- The cores of a grove re-initialised, and unbound (R423, R455). -/
def State.reinit (s : State) (g : Nat) : State :=
  s.eachCore g fun c => let c1 := c.initField; { c1 with t := { c1.t with session := 0 } }

/-- GROVE_TEST_DONE (R419 to R423, R425, R429, R430): the running test of the grove completes: the positions where memory BIST found a bad
cell, and the signatures it left. -/
def execGroveTestDone (grove : Nat) (ended : TestEnd) (s : State) : Out :=
  guard (decide (grove < 750))
    (match s.lead.tests with
     | [] => s
     | r :: rest =>
       if r.grove ≠ grove ∨ !s.dieUp (dieOfGrove grove) then s
       else
         let x := s.grove grove
         let expected := s.expectedSig r.patterns
         let l := countedFails s.lead.fwValid (failsOf ended.memory (wrongSigs expected ended.sigs))
         let v := x.verdict s.lead.fwValid l
         let n := x.failCount l
         let d := testDetail v n (x.changed l)
         let s1 := (((s.modLead fun y => { y with tests := rest }).reinit grove).setCodes grove l).modGrove grove fun g =>
           { g.ranBist r.patterns expected ended.sigs with tested := true }
         let block := testBlock grove x v n (fun r => (s1.grove grove).code r) l
         let s3 := match r.cmd with
           | none => s1.reportTest grove d
           | some c =>
             if r.service ∧ v < 2 then
               let (ok, s2) := if c.wantsBlock then s1.leadHost else (true, s1)
               if !ok then s2.finish c 0x0B 0
               else (if c.wantsBlock then s2.hostWrite (c.n 16 8) block else s2).modLead fun y =>
                 { y with returns := y.returns ++ [(grove, some c, d)] }
             else s1.finishTest c d block
         State.nextTest s3.lead.tests.length s3)

/-! ## GROVE_SERVICE -/

/-- A grove fenced (R201, R368, R427, R429). -/
def State.fence (s : State) (g : Nat) : State :=
  if (s.grove g).fence then s
  else (((s.modGrove g fun x => { x with fence := true, gated := false, tested := false }).eachCore g fun c =>
    { c with t := { c.t with idleCnt := 0 } }).flush g false).spadsGone g 8

/-- Whether a command is GROVE_SERVICE with an OP. -/
def isService (op : Nat) (c : Cmd) : Bool := decide (c.opcode = 0x0D ∧ c.n 12 1 % 8 = op)

/-- P of TEST and SERVICE (Table 18.1). -/
def Cmd.patterns (c : Cmd) : Nat := if c.n 13 1 = 0 then 16384 else 1024 * c.n 13 1

/-- GROVE_SERVICE, OP FENCE (R428, R429). -/
def execGroveServiceFence (pair : Nat) (s : State) : Out :=
  cmdRow pair (isService 0) (fun c s => (s.fence (c.n 8 4)).finish c 0 0) s

/-- GROVE_SERVICE, OP TEST (R428, R429). -/
def execGroveServiceTest (pair : Nat) (s : State) : Out :=
  cmdRow pair (isService 1) (fun c s => s.queueTest { grove := c.n 8 4, cmd := some c, patterns := c.patterns }) s

/-- GROVE_SERVICE, OP RETURN (R398, R428, R429): it completes with the grove's power-on step. -/
def execGroveServiceReturn (pair : Nat) (s : State) : Out :=
  cmdRow pair (isService 2) (fun c s => s.modLead fun l => { l with returns := l.returns ++ [(c.n 8 4, some c, 0)] }) s

/-- GROVE_SERVICE, OP SERVICE (R428, R429). -/
def execGroveServiceService (pair : Nat) (s : State) : Out :=
  cmdRow pair (isService 3) (fun c s => (s.fence (c.n 8 4)).queueTest { grove := c.n 8 4, cmd := some c, service := true, patterns := c.patterns }) s

/-- A grove's power-on step ends: DEEP is left, or RETURN's grove is ON and its command completes (R398, R405, R429, R477). -/
def State.switchOn (s : State) (g : Nat) : State :=
  let x := s.grove g
  if x.deep then ((s.modGrove g fun x => { x with deep := false, on := true, cool := 0, wantStep := false }).eachCore g Core.initField).groveEvent 7 g
  else match s.lead.returns.find? fun p => decide (p.1 = g) with
    | none => s
    | some r =>
      let s1 := ((s.modLead fun l => { l with returns := l.returns.erase r }).reinit g).modGrove g fun x =>
        { x with fence := false, tested := false, on := true }
      match r.2.1 with
      | some c => s1.finish c 0 r.2.2
      | none => s1

/-- The grove that the next step serves: the lowest that waits; a DEEP one only while its die's stewards run (R398, R407). -/
def State.nextStep (s : State) : Option Nat :=
  (List.range 750).find? fun g =>
    let x := s.grove g
    !x.unavail && ((x.deep && x.wantStep && s.stewards (dieOfGrove g)) || (decide (x.state = 5) && s.lead.returns.any fun p => decide (p.1 = g)))

/-! ## Lost cores -/

/-- The MMAs that a core has accepted and not finished, discarded: what they leave in their accumulators is undefined, a free value of
each from number k on (R160). -/
def Core.discardMmas (c : Core) (k : Nat) : Core :=
  let c1 := c.f.mx.queue.foldl (fun (c : Core) j =>
    j.accs.foldl (fun c i => c.setAcc i { c.acc i with data := Config.freeAcc (k + i) }) c) c
  c1.modMx fun m => { m with queue := [] }

/-- The fence of a lost core's grove discards its MMAs (R160, R436). -/
def State.discardMmas (s : State) (g : Nat) : State :=
  let s1 := (groveCores g).zipIdx.foldl (fun t p => t.modCore p.1 fun c => c.discardMmas (s.free + 4 * p.2)) s
  { s1 with free := s.free + 1024 }

/-- A core is lost (R436): cause 1 a permanent check outcome, whose position is retired, 2 liveness. -/
def State.coreLost (s : State) (w cause o c1 n : Nat) : State :=
  let g := groveOf w
  let p := s.physWord w
  let s1 := (s.fence g).discardMmas g
  let s2 := (s1.endRunsIn g 0x12 w p).report 7 (dieOf w) cause w p 0 o c1 n
  let s3 := if cause = 1 then s2.modGrove g fun x =>
      let k := (rowOf w, physPos (x.code (rowOf w)).toNat (posOf w))
      { x with retired := if k ∈ x.retired then x.retired else x.retired ++ [k] }
    else s2
  s3.queueTest { grove := g }

/-- A double fault reported (R438). -/
def State.doubleFault (s : State) (w : Nat) : State :=
  let p := s.physWord w
  let s1 := s.report 8 (dieOf w) 0 w p 0 0 0 0
  match s1.standOf w with
  | some n => s1.endRun n 0x12 0 w p
  | none => s1

/-- One core's probe (R437): a read that does not return in time fails, and one that returns is held against the last reading. -/
def State.probe (silent : List Nat) (s : State) (w : Nat) : State :=
  let t := (s.core w).t
  let seen := if w ∈ silent then t.aliveSeen else t.alive
  let n := if seen = t.aliveSeen then t.probeFail + 1 else 0
  let s1 := s.modCore w fun c => { c with t := { c.t with aliveSeen := seen, probeFail := if n = 4 then 0 else n } }
  if n = 4 ∧ s.gstate w = 1 then s1.coreLost w 2 0 0 0 else s1

/-- LIVENESS_PROBE (R437). -/
def execLivenessProbe (p : Probes) (s : State) : Out :=
  guard (decide (p.die < 25))
    (if !s.stewards p.die then s
     else (dieGroves p.die).foldl (fun s g => if (s.grove g).state = 1 then (groveCores g).foldl (State.probe p.silent) s else s) s)

/-- CHECK_CFG_WRITE (R431, R435). -/
def execCheckCfgWrite (c : Nat) (v : Word) (s : State) : Out := s.writeReg c 0x540 v

/-! ## Lost dies -/

/-- DIE_HEARTBEAT_LOSS_PROBE (R439): a die that has sent no heartbeat since the last look is probed. -/
def execDieHeartbeatLossProbe (die : Nat) (answers : Bool) (s : State) : Out :=
  guard (decide (die < 25))
    (let x := s.die die
     if !s.dieUp die || x.updating || x.stewLost || !s.lead.fwValid || decide (die = s.leadDie) then s
     else if x.beat then s.modDie die fun d => { d with beat := false }
     else if answers then (s.modDie die fun d => { d with stewLost := true }).report 12 die 0 0 0 0 0 0 0
     else s)

/-- Whether the route from core a to core b enters die d. -/
def entersDie (a b d : Nat) (yx : Bool) : Bool := (route a b yx).any fun v => decide (dieOf v = d)

/-- The entries of core w whose route enters a lost die marked (R440). -/
def Core.markLost (w d : Nat) (c : Core) : Core :=
  let enters := fun (b : Nat) => entersDie w b d (c.orderTo b)
  let c1 := (List.range 32).foldl (fun (c : Core) i =>
    let o := c.chOut i
    let b := if o.ext then (joinOf (.eth (o.tgt.toNat % 8)) w).1 else o.tgt.toNat
    let yx := if o.ext then orderToPort (joinOf (.eth (o.tgt.toNat % 8)) w).2.2 else decide (o.order = 1)
    if o.en && entersDie w b d yx then c.setOut i { o with errUn := true } else c) c
  (List.range 16).foldl (fun (c : Core) i =>
    let o := c.ocred i
    if o.en && enters o.tgt.toNat then c.setOcred i { o with rwErr := true } else c) c1

/-- The transfers of a lost engine complete with ENGINE_LOST (R368, R440). -/
def State.failEngine (s : State) (e : Nat) : State :=
  let xs := (s.engine e).rotation 0
  let s1 := s.modEngine e fun x => { x with xfers := [], replies := [] }
  xs.foldl (fun s x => let s2 := s.untrack e x; if x.dropped then s2 else s2.finish x.cmd 0x0A (2 ^ 48 * 5)) s1

/-- The DMA commands that wait for an engine of a lost die complete with ENGINE_LOST. -/
def State.failWaiting (s : State) (d : Nat) : State :=
  let lost := s.lead.dmaWait.filter fun c => decide ((engineName (s.engineFor c)).1 = d)
  lost.foldl (fun s c => s.finish c 0x0A (2 ^ 48 * 5)) (s.modLead fun l => { l with dmaWait := l.dmaWait.filter fun c => !decide (c ∈ lost) })

/-- The lowest core of a stand on a die. -/
def State.standOnDie (s : State) (n d : Nat) : Option Nat := (s.stand n).cores.find? fun w => decide (dieOf w = d)

/-- A die's trunk lost (R303, R440, R441). -/
def State.trunkLost (s : State) (d : Nat) : State :=
  let s1 := s.modDie d fun x => { x with lost := true }
  let s2 := (dieGroves d).foldl (fun s g =>
    (((s.modGrove g fun x => { x with unavail := true }).purge g false).cutPorts g).report 10 d 0 g 0 0 0 0 0) s1
  let s3 := (diePorts d).foldl (fun s m => s.failPort m fun p => { p with lost := true, direct := [] }) s2
  let s4 := (((List.range 58).filter fun e => decide ((engineName e).1 = d)).foldl (fun s e => s.failEngine e) s3).failWaiting d
  let s5 := s4.loadedStands.foldl (fun s n => match s.standOnDie n d with
    | some w => s.endRun n 0x12 0 w (d * 2 ^ 14 + 0x3FFF)
    | none => s) s4
  let s6 : State := { s5 with cores := (s5.cores.filter fun p => !decide (dieOf p.1 = d)).map fun p => (p.1, p.2.markLost p.1 d) }
  let s7 := s6.report 11 d 0 0 0 0 0 0 0
  if d = 2 then { s7 with cxl := { s7.cxl with link := false, cut := true } } else s7

/-- DIE_TRUNK_LOST (R440). -/
def execDieTrunkLost (die : Nat) (s : State) : Out :=
  guard (decide (die < 25)) (if s.dieUp die then s.trunkLost die else s)

/-! ## Notices -/

/-- A STAND_STALL event, once until software has cleared STALLED on every core of the stand (R247, R354). -/
def State.stallEvent (s : State) (w : Nat) : State :=
  match s.standOf w with
  | none => s
  | some n =>
    if (s.stand n).stallPosted then s
    else (s.modStand n fun r => { r with stallPosted := true }).modLead fun l =>
      { l with toPost := l.toPost ++ [.stall n w (s.stand n).cores none] }

/-- A run ended by a stream fault of a core in stand mode: WORD_B is the fault's SINFO (R321, Table 14.7). -/
def State.streamEnd (s : State) (w stream : Nat) (reason : BitVec 4) : State :=
  match s.standOf w with
  | none => s
  | some n => s.endRun n 0x14 0 w (reason.toNat + 16 * stream)

/-- What a steward does with a notice of core w (R119, R129, R166, R230, R247, R298, R321, R322, R434, R436, R438). -/
def State.onNotice (s : State) (w : Nat) : Notice → State
  | .l2 .. => s
  | .l2double => s.doubleFault w
  | .spadUe a => s.reportCore 1 w 0 a 0 0 0
  | .tileUe => s.reportCore 2 w 0 0 0 0 0
  | .ctxUe a => s.reportCore 3 w 0 a.toNat 0 0 0
  | .stall => s.stallEvent w
  | .check sinfo n o c1 => s.reportCore 6 w 0 sinfo.toNat o.toNat c1.toNat n
  | .permanent n o c1 => s.coreLost w 1 o.toNat c1.toNat n
  | .streamFault st r => s.streamEnd w st r
  | .streamHalt st j r a => s.post { type := 0x13, len := 2, body := le 4 (w + 2 ^ 18 * st + 2 ^ 20 * r.toNat) ++ le 4 j ++ le 8 a }
  | .dbgStop .. => s
  | .traceFull => s

/-- A notice that reaches its steward in the same step, or waits while the steward does not run (R298). -/
def State.tell (s : State) (w : Nat) (n : Notice) : State :=
  if s.stewards (dieOf w) then s.onNotice w n else s.modCore w fun c => c.notice n

/-- A notice of a die taken by its stewards. -/
def State.onDieNotice (s : State) : DieNotice → State
  | .core w n => s.onNotice w n
  | n => s.onPartNotice n

/-- The notices that waited for a die's stewards, which run again (R418). -/
def State.drainNotices (s : State) (d : Nat) : State :=
  (s.die d).queue.foldl State.onDieNotice (s.modDie d fun x => { x with queue := [] })

/-! ## A firmware update that stops -/

/-- The mask of some dies. -/
def dieMask (ds : List Nat) : Nat := ds.foldl (fun m d => m + 2 ^ d) 0

/-- A job's command completes, unless it has ended before (R395). -/
def State.finishJob (s : State) (j : FwJob) (status detail : Nat) : State :=
  let s1 := s.modLead fun l => { l with fw := none }
  if j.dropped then s1 else s1.finish j.cmd status detail

/-- The die being updated runs again, and the lead role returns to die 2 (R396, R417, R418). -/
def State.updateOver (s : State) (d : Nat) : State :=
  let s1 := s.modDie d fun x => { x with updating := false, beat := false }
  (if d = 2 then s1.modLead fun l => { l with leadAlt := false } else s1).drainNotices d

/-- The previous image of the die being updated restarts and the command stops (R417). -/
def State.stopUpdate (s : State) (d : Nat) : State :=
  match s.lead.fw with
  | none => s
  | some j =>
    if j.load ∨ j.left.head? ≠ some d then s
    else (s.updateOver d).finishJob j 0x05 (dieMask j.done + 2 ^ 25 * d)

/-- The kind of a notice (R298, R418). -/
def Notice.kind : Notice → Nat
  | .l2 .. => 0
  | .l2double => 1
  | .spadUe _ => 2
  | .ctxUe _ => 3
  | .tileUe => 4
  | .stall => 5
  | .check .. => 6
  | .permanent .. => 7
  | .streamFault .. => 8
  | .streamHalt .. => 9
  | .dbgStop .. => 10
  | .traceFull => 11

/-- Notices that a core holds while its die's queue is full: the first of each kind, and every debug record (R418, R496; log 55). -/
def mergeKinds : List Notice → List Notice
  | [] => []
  | n :: ns => n :: (mergeKinds ns).filter fun m => decide (m.kind ≠ n.kind ∨ 10 ≤ n.kind)

end Sys2Proof.Machine
end

