-- ==== Sys2Proof/Machine/Power.lean ====
section
/-! DEFINITION. DVFS points, the power envelope, sensors and the staged response, heartbeats and the lead role (R394, R395, R399 to
R407, R411 to R414). -/
namespace Sys2Proof.Machine

/-- Thresholds and envelope of a class: °C in quarter degrees, the envelope in milliwatts (Table 17.2). -/
structure Limits where
  envelope : Nat
  step : Int
  light : Int
  deep : Int
  trip : Int
  throttle : Int
  stackTrip : Int
  portStep : Int
  portTrip : Int
  deriving DecidableEq, Repr

/-- The row of a class (Table 17.2). -/
def limitsOf (cls : Nat) : Limits :=
  match cls with
  | 2 => ⟨15000000, 4 * 95, 4 * 103, 4 * 108, 4 * 115, 4 * 90, 4 * 105, 4 * 100, 4 * 115⟩
  | 3 => ⟨15000000, 4 * 90, 4 * 100, 4 * 105, 4 * 112, 4 * 88, 4 * 103, 4 * 98, 4 * 112⟩
  | _ => ⟨6000000, 4 * 85, 4 * 95, 4 * 100, 4 * 110, 4 * 85, 4 * 100, 4 * 95, 4 * 110⟩

/-- The class declared, air before a declaration (R4, R400). -/
def State.declared (s : State) : BitVec 2 := if s.lead.cls = 0 then 1 else s.lead.cls

/-- Five degrees. -/
def fiveDegrees : Int := 20

/-! ## Points -/

/-- A die's point changed: with its stewards running, cause 13 at every running core that asks for it (R399, R413). -/
def State.setPoint (s : State) (d : Nat) (p : BitVec 2) : State :=
  let s1 := s.modDie d fun x => { x with point := p, ramp := none }
  if !s.stewards d then s1
  else (dieGroves d).foldl (fun s g =>
    if (s.grove g).state = 1 ∨ (s.grove g).state = 2 then
      (if (groveCores g).any fun w => (s.core w).f.dvfsEn then
         (s.wake g).eachCore g fun c => if c.f.dvfsEn then c.raisePower (BitVec.ofNat 32 (1 + 16 * p.toNat)) else c
       else s)
    else s) s1

/-- Whether a die may step: its stewards run and its last step is far enough back (R399, R407). -/
def State.mayStep (s : State) (d : Nat) : Bool := s.stewards d && decide ((s.die d).rest = 0)

/-- One step down, with its event (R399, R401, R406). `wait`: samples before the next step. -/
def State.stepDown (s : State) (d kind temp wait : Nat) : State :=
  if !s.mayStep d ∨ (s.die d).point = 3 then s
  else (((s.setPoint d ((s.die d).point + 1)).modDie d fun x => { x with rest := wait }).thermal kind (some d) 0 temp)

/-- A step up begins: the rail ramps (R399). -/
def State.rampUp (s : State) (d : Nat) : State :=
  s.modDie d fun x => { x with ramp := some (x.point - 1), rest := 2 }

/-- DVFS_STEP_UP_SWITCH (R399, R401, R407): the ramp has ended and the clock switches. -/
def execDvfsStepUpSwitch (die : Nat) (s : State) : Out :=
  guard (decide (die < 25))
    (match (s.die die).ramp with
     | none => s
     | some p => if s.stewards die then (s.setPoint die p).thermal 3 (some die) 0 0 else s)

/-- The die that steps up: of those that may, the one at the lowest frequency, the lowest index among equals (R401). -/
def State.stepUpDie (s : State) : Option Nat :=
  let ok := fun (p : BitVec 2) (d : Nat) =>
    s.mayStep d && decide ((s.die d).point = p) && !(s.die d).held && (s.die d).ramp.isNone
  [3, 2, 1].findSome? fun p => (List.range 25).find? (ok p)

/-- POWER_WINDOW (R400, R401): the mean input power of the window, in milliwatts. -/
def execPowerWindow (meanMw : Nat) (s : State) : Out :=
  .next (if !s.stewards s.leadDie then s
    else
      let s1 := s.modLead fun l => { l with clsNow := s.declared, watts := meanMw / 1000 }
      let e := (limitsOf s.declared.toNat).envelope
      if e < meanMw then
        ((List.range 25).foldl (fun s d => s.stepDown d 2 0 2) s1).modLead fun l => { l with holdoff := 4 }
      else if s1.lead.holdoff ≠ 0 then s1.modLead fun l => { l with holdoff := l.holdoff - 1 }
      else if 10 * meanMw < 9 * e ∧ 2 ≤ s.lead.state then
        match s1.stepUpDie with
        | some d => s1.rampUp d
        | none => s1
      else s1)

/-- CURRENT_LIMIT (R402): an input current in milliamperes above 1.1·E ÷ 40 V takes every die to point 3. -/
def execCurrentLimit (ma : Nat) (s : State) : Out :=
  .next (if 11 * (limitsOf s.lead.clsNow.toNat).envelope < 400 * ma then
      ((List.range 25).foldl (fun s d =>
        if s.dieUp d then (if (s.die d).point = 3 then s.modDie d fun x => { x with ramp := none } else s.setPoint d 3).modDie d fun x =>
          { x with rest := 2 } else s) s).thermal 10 none 0 0
    else s)

/-! ## Trips -/

/-- A trip (R412, R476, R509): every converter off; nothing is kept but the state of the supplies, and the module stays off until
re-armed. -/
def State.tripAll (s : State) : State :=
  { input := { s.input with run := false, rails := false, armed := false, trip := true }
    bt := s.bt, hostMem := s.hostMem, free := s.free, pending := s.pending }

/-! ## Samples -/

/-- A 12-bit reading. -/
def reading (n : Nat) : BitVec 12 := BitVec.ofNat 12 n

/-- The readings of a die's sensors stored: its groves, then its stack's, then its port block's (R403). -/
def State.storeReadings (s : State) (d : Nat) (rs : List Nat) : State :=
  let s1 := (List.range 30).foldl (fun s k =>
    let v := reading (rs.getD k 0)
    s.modGrove (30 * d + k) fun x => { x with temp := v, peak := if tempOf x.peak < tempOf v then v else x.peak }) s
  let st := dieStacks d
  let s2 := st.zipIdx.foldl (fun s p => s.modLead fun l => { l with stackTemp := sset 0 l.stackTemp p.1 (reading (rs.getD (30 + p.2) 0)) }) s1
  match dieBlock d with
  | some _ => s2.modDie d fun x => { x with blockTemp := reading (rs.getD (30 + st.length) 0) }
  | none => s2

/-- The reading of stack k. -/
def State.stackReading (s : State) (k : Nat) : Int := tempOf (sget 0 s.lead.stackTemp k)

/-- Whether a sample of a die trips the module (R412, Table 17.2). -/
def State.tripDue (s : State) (d : Nat) (t : Limits) : Bool :=
  (dieGroves d).any (fun g => decide (t.trip ≤ tempOf (s.grove g).temp)) || (dieStacks d).any (fun k => decide (t.stackTrip ≤ s.stackReading k))
    || (dieBlock d).isSome && decide (t.portTrip ≤ tempOf (s.die d).blockTemp)

/-- A deep clearing: within the die whose stewards are being updated it stops the update (R405, R407, R417). -/
def State.clearDeep (s : State) (g : Nat) : State :=
  let d := dieOfGrove g
  let s1 := s.enterDeep g
  if (s.die d).updating then s1.stopUpdate d else s1

/-- The deep clearings of a sample (R405). -/
def State.deepStage (s : State) (d : Nat) (t : Limits) : State :=
  (dieGroves d).foldl (fun s g =>
    let x := s.grove g
    if (x.state = 1 ∨ x.state = 2 ∨ x.state = 3 ∨ x.state = 5) ∧ t.deep ≤ tempOf x.temp then s.clearDeep g else s) s

/-- The light clearings of a sample, and the cool samples of cleared groves: the sixteenth ends LIGHT, or asks for DEEP's power-on step
(R405, R407). -/
def State.lightStage (s : State) (d : Nat) (t : Limits) : State :=
  (dieGroves d).foldl (fun s g =>
    let x := s.grove g
    if x.state = 3 ∨ x.state = 4 then
      let n := if tempOf x.temp ≤ t.light - fiveDegrees then x.cool + 1 else 0
      let s1 := s.modGrove g fun x => { x with cool := n }
      if n < 16 ∨ !s.stewards d then s1
      else if x.state = 3 then s1.leaveLight g
      else s1.modGrove g fun x => { x with wantStep := true }
    else if (x.state = 1 ∨ x.state = 2 ∨ x.state = 5) ∧ t.light ≤ tempOf x.temp ∧ s.stewards d then s.enterLight g
    else s) s

/-- The hottest grove sensor of a die. -/
def State.hottestGrove (s : State) (d : Nat) : BitVec 12 := (hottest ((dieGroves d).map fun g => ((s.grove g).temp, 0, g))).1

/-- The die step of a sample, and its end (R399, R406, R411). -/
def State.stepStage (s : State) (d : Nat) (t : Limits) : State :=
  let h := s.hottestGrove d
  let b := (s.die d).blockTemp
  let port := (dieBlock d).isSome
  let s1 := s.modDie d fun x => { x with rest := x.rest - 1 }
  if !s.stewards d then s1
  else if t.step ≤ tempOf h then (s1.stepDown d 1 (temp16 h) 1).modDie d fun x => { x with held := true }
  else if port && decide (t.portStep < tempOf b) then (s1.stepDown d 1 (temp16 b) 1).modDie d fun x => { x with held := true }
  else if decide (tempOf h ≤ t.step - fiveDegrees) && (!port || decide (tempOf b ≤ t.portStep - fiveDegrees)) then
    s1.modDie d fun x => { x with held := false }
  else s1

/-- The throttle of a die's stack (R411). -/
def State.throttleStage (s : State) (d : Nat) (t : Limits) : State :=
  (dieStacks d).foldl (fun s k =>
    let v := s.stackReading k
    let raw := temp16 (sget 0 s.lead.stackTemp k)
    let on := s.lead.throttled.getLsbD k
    let set := fun (b : Bool) (s : State) => s.modLead fun l => { l with throttled := setFld l.throttled k 1 (b2n b) }
    if !on ∧ t.throttle < v then (set true s).thermal 8 (some d) k raw
    else if on ∧ v ≤ t.throttle - fiveDegrees then (set false s).thermal 9 (some d) k raw
    else s) s

/-- SENSOR_SAMPLE (R299, R400, R403 to R406, R411): 2^16 steward cycles have passed; the readings in 0.25 °C units, as 12-bit numbers. -/
def execSensorSample (die : Nat) (readings : List Nat) (s : State) : Out :=
  guard (decide (die < 25))
    (if !s.dieUp die then s
     else
       let t := limitsOf s.declared.toNat
       let s1 := (s.storeReadings die readings).modDie die fun x => { x with cls := s.declared, stewCyc := x.stewCyc + 0x10000 }
       if s1.tripDue die t then s1.tripAll
       else (((s1.deepStage die t).lightStage die t).stepStage die t).throttleStage die t)

/-- THERMAL_GUARD_TRIP (R407, R412, R417): a deep clearing of a grove of the die, or, with none, a trip. -/
def execThermalGuardTrip (die : Nat) (grove : Option Nat) (s : State) : Out :=
  guard (decide (die < 25) && (match grove with
    | some g => decide (g < 750 ∧ dieOfGrove g = die)
    | none => true))
    (if !s.dieUp die then s
     else match grove with
       | none => s.tripAll
       | some g =>
         let st := (s.grove g).state
         if st = 1 ∨ st = 2 ∨ st = 3 ∨ st = 5 then s.clearDeep g else s)

/-- EXT_EVT_CTL_WRITE (R413, R415). -/
def execExtEvtCtlWrite (c : Nat) (v : Word) (s : State) : Out := s.writeReg c 0xB8C v

/-! ## Heartbeats and the lead -/

/-- HEARTBEAT (R394). -/
def execHeartbeat (die : Nat) (s : State) : Out :=
  guard (decide (die < 25)) (if s.stewards die && s.lead.fwValid then s.modDie die fun d => { d with beat := true } else s)

/-- The commands that the old lead held: admitted and waiting for their own step, waiting for an engine, in transfers, closing streams,
in tests and in an update. -/
def State.leadCommands (s : State) : List Cmd :=
  (s.pairs.flatMap fun p => p.2.admitted) ++ s.lead.dmaWait
    ++ (s.engines.flatMap fun e => (e.2.xfers.filter fun x => !x.dropped).map (·.cmd))
    ++ (s.eths.flatMap fun e => e.2.streams.flatMap fun y => y.2.closing)
    ++ (s.lead.tests.filterMap (·.cmd)) ++ (s.lead.returns.filterMap fun r => r.2.1) ++ ((s.lead.fw.toList.filter fun j => !j.dropped).map (·.cmd))

/-- A job whose command has ended: the die being updated goes on, the others are left; a start of firmware ends. -/
def FwJob.drop (j : FwJob) : Option FwJob := if j.load then none else some { j with left := j.left.take 1, dropped := true }

/-- Those commands forgotten; what the hardware has under way goes on. -/
def State.forgetCommands (s : State) : State :=
  { s with
    pairs := s.pairs.map fun p => (p.1, { p.2 with admitted := [] })
    engines := s.engines.map fun e => (e.1, { e.2 with xfers := e.2.xfers.map fun x => { x with dropped := true } })
    eths := s.eths.map fun e => (e.1, { e.2 with streams := e.2.streams.map fun y => (y.1, { y.2 with closing := [] }) })
    lead := { s.lead with
      dmaWait := [], tests := s.lead.tests.map (fun t => { t with cmd := none }),
      returns := s.lead.returns.map (fun r => (r.1, none, r.2.2)), fw := s.lead.fw.bind FwJob.drop } }

/-- LEAD_TAKEOVER (R395): the alternate has had no heartbeat since it last looked. -/
def execLeadTakeover (s : State) : Out :=
  .next (let l := s.die 2
    if s.lead.leadAlt || l.updating || !s.stewards 12 || !s.lead.fwValid then s
    else if l.beat then s.modDie 2 fun d => { d with beat := false }
    else
      let lost := s.lead.backlog.length + s.lead.toPost.length
      let s1 := s.leadCommands.foldl State.leadLost s.forgetCommands
      let s2 := s1.modLead fun l =>
        { l with leadAlt := true, backlog := [], toPost := [], evtLost := satAdd l.evtLost lost, lostNow := l.lostNow + lost }
      (List.range 64).foldl (fun s q => s.admitAll q) (s2.thermal 11 none 0 0))

end Sys2Proof.Machine
end

