-- ==== Sys2Proof/Machine/Security.lean ====
section
/-! DEFINITION. Identity, measurements, attestation messages, sessions and sealed regions (R443 to R462). -/
namespace Sys2Proof.Machine

/-! ## Firmware images -/

/-- Whether a firmware image passes the three steps of R443; len is the LEN of the command that supplies it. -/
def imageOk (img : List Byte) (len : Nat) : Bool :=
  let key := (img.drop 16).take 97
  decide (field img 0 4 = 0x57465147 ∧ field img 8 4 = len) && decide (Config.sha384 key = Config.vendorHash)
    && Config.ecdsaOk key (Config.sha384 (img.take (len - 96))) (img.drop (len - 96))

/-- VERSION of an image (Table 19.1). -/
def imageVersion (img : List Byte) : Word := BitVec.ofNat 32 (field img 4 4)

/-! ## Identity -/

/-- SESSION, OP IDENTITY (R446 to R448): each present die derives its key and confirms it against its certificate. -/
def State.identify (s : State) (bundle : List Byte) : State :=
  ((List.range 25).foldl (fun s d =>
    let entry := bundle.drop (2048 * d)
    let cert := (entry.drop (1024 + 8)).take 97
    if s.dieUp d && decide (Config.pufKey d (entry.take 1024) = cert) then s.modDie d fun x => { x with pubKey := cert }
    else s.modDie d fun x => { x with pubKey := [] }) s).modLead fun l => { l with idDone := true }

/-- Whether a die's identity is confirmed (R447). -/
def State.confirmed (s : State) (d : Nat) : Bool := !(s.die d).pubKey.isEmpty
/-- ID_MAP (R447). -/
def State.idMap (s : State) : Nat := (List.range 25).foldl (fun m d => m + if s.confirmed d then 2 ^ d else 0) 0
/-- The 25 public keys in die index order, zero for an unconfirmed die. -/
def State.pubKeys (s : State) : List Byte := (List.range 25).flatMap fun d => padTo 97 (s.die d).pubKey
/-- MODULE_ID (R447). -/
def State.moduleId (s : State) : BitVec 384 := Config.sha384 s.pubKeys

/-- MR_REPAIR (Table 19.2). -/
def State.mrRepair (s : State) : BitVec 384 :=
  Config.sha384 (((List.range 750).flatMap fun g =>
    let x := s.grove g
    (List.range 16).map fun r => (x.rowWord r).extractLsb' 0 8) ++ le 4 s.dieMap)

/-! ## Attestation messages -/

/-- The 8-byte header of a message (R450). -/
def doeHeader (mtype session len : Nat) : List Byte := le 1 mtype ++ le 1 1 ++ le 2 session ++ le 4 len

/-- A reply left in the mailbox. -/
def State.doeReply (s : State) (bs : List Byte) : State := { s with cxl := { s.cxl with doe := bs } }
/-- An ERROR reply (Table 19.3). -/
def State.doeError (s : State) (session code : Nat) : State := s.doeReply (doeHeader 0xFF session 9 ++ le 1 code)

/-- A message of type mtype handled by f; a malformed one, or one of no type of Table 19.3, is answered with FORMAT (R450). -/
def State.doeRow (mtype len : Nat) (exact : Bool) (msg : List Byte) (f : State → State) (s : State) : State :=
  let t := field msg 0 1
  if !s.cxl.link || !s.stewards s.leadDie then s
  else if t ≠ mtype ∧ 1 ≤ t ∧ t ≤ 5 then s
  else if t ≠ mtype ∨ field msg 1 1 ≠ 1 ∨ field msg 4 4 ≠ msg.length ∨ msg.length < len ∨ (exact ∧ msg.length ≠ len) then
    s.doeError (field msg 2 2) 2
  else f s

/-- GET_IDENTITY (Table 19.3). -/
def execGetIdentity (msg : List Byte) (s : State) : Out :=
  .next (s.doeRow 1 8 true msg fun s => s.doeReply (doeHeader 0x81 0 (12 + 25 * 97) ++ le 4 s.idMap ++ s.pubKeys))

/-- Bytes 0 to 1,667 of a report (Table 19.4). -/
def State.reportBody (s : State) (mtype session : Nat) (nonce eph : List Byte) : List Byte :=
  let work : BitVec 384 := ((s.session session).map (·.work)).getD 0
  doeHeader mtype session 1764 ++ padTo 48 nonce ++ bytesOf 48 s.moduleId ++ le 1 s.leadDie ++ le 1 s.lead.state.toNat
    ++ le 1 s.lead.cls.toNat ++ le 1 0 ++ le 4 s.dieMap ++ le 4 session ++ le 4 s.idMap ++ bytesOf 48 s.lead.mrConfig
    ++ bytesOf 48 s.mrRepair ++ bytesOf 48 work ++ ((List.range 25).flatMap fun d => bytesOf 48 (s.die d).digest)
    ++ ((List.range 25).flatMap fun d => bytesOf 4 (s.die d).version) ++ le 4 0 ++ padTo 97 eph ++ le 3 0

/-- A signed report (R451). -/
def State.signedReport (s : State) (mtype session : Nat) (nonce eph : List Byte) : List Byte :=
  let b := s.reportBody mtype session nonce eph
  b ++ padTo 96 (Config.ecdsaSign s.leadDie (Config.sha384 b))

/-- ATTEST (R448, R451). -/
def execAttest (msg : List Byte) (s : State) : Out :=
  .next (s.doeRow 2 56 true msg fun s =>
    if !s.confirmed s.leadDie then s.doeError 0 1 else s.doeReply (s.signedReport 0x82 0 (msg.drop 8) []))

/-- KEY_EXCHANGE (R448, R451, R452). -/
def execKeyExchange (msg : List Byte) (s : State) : Out :=
  .next (s.doeRow 3 153 true msg fun s =>
    let point := (msg.drop 8).take 97
    let l := s.lead
    if !s.confirmed s.leadDie then s.doeError 0 1
    else if !l.fwValid ∨ 16 ≤ l.sessions.length ∨ 0xFFFF < l.nextSession then s.doeError 0 3
    else if !Config.onCurve point then s.doeError 0 5
    else
      let nonce := bytesOf 48 (Config.sha384 (msg.drop 8))
      let root := Config.hkdfExtract nonce (Config.ecdh l.eph point)
      let key := fun (info : String) (n : Nat) => Config.hkdfExpand root (ascii info) n
      let x : Session :=
        { id := l.nextSession, keys := key "gq mem" 64 ++ key "gq imp" 32 ++ key "gq exp" 32 ++ key "gq ctl" 32, root := root }
      let s1 := s.modLead fun l => { l with sessions := l.sessions ++ [x], nextSession := l.nextSession + 1, eph := l.eph + 1 }
      s1.doeReply (s1.signedReport 0x83 x.id nonce (Config.ephPub l.eph)))

/-- K_IMP, K_EXP and K_CTL of a session (Table 19.5). -/
def Session.kImp (x : Session) : List Byte := (x.keys.drop 64).take 32
/-- K_EXP. -/
def Session.kExp (x : Session) : List Byte := (x.keys.drop 96).take 32
/-- K_CTL. -/
def Session.kCtl (x : Session) : List Byte := (x.keys.drop 128).take 32

/-- The state with a session changed. -/
def State.modSession (s : State) (n : Nat) (f : Session → Session) : State :=
  s.modLead fun l => { l with sessions := l.sessions.map fun x => if x.id = n then f x else x }

/-! ## Sealed regions -/

/-- The 4 KiB units of a device range of whole units. -/
def unitsIn (a n : Nat) : List Nat := (List.range (n / 4096)).map fun i => a + 4096 * i

/-- A 4 KiB unit written as zero, and freed of host-held lines and merge entries (R453, R460). -/
def State.zeroUnit (s : State) (a : Nat) : State :=
  match s.mapAddr a with
  | .inl _ => s
  | .inr (m, po) =>
    let inU := fun (l : Nat) => decide (po / 64 ≤ l ∧ l < po / 64 + 64)
    ({ s with mem := sclear s.mem (memKey m po) 4096 } : State).modPort m fun p =>
      { p with filter := p.filter.filter fun l => !inU l
               snoop := p.snoop.filter fun l => !inU l
               merge := p.merge.filter fun b => !decide (po / 256 ≤ b ∧ b < po / 256 + 16)
               err := sclear p.err (po / 64) 64
               cnt := smod 0 p.cnt 3 (· + 4096) }

/-- A device range written as zero. -/
def State.zeroRange (s : State) (a n : Nat) : State := (unitsIn a n).foldl State.zeroUnit s

/-- The region that starts at an address. -/
def State.regionFrom (s : State) (a session : Nat) : Option Region := s.lead.regions.find? fun r => decide (r.base = a ∧ r.session = session)

/-- A region unsealed (R460). -/
def State.unseal (s : State) (r : Region) : State :=
  (s.zeroRange r.base r.len).modLead fun l => { l with regions := l.regions.erase r }

/-! ## SESSION -/

/-- Whether a command is SESSION with an OP. -/
def isSession (op : Nat) (c : Cmd) : Bool := decide (c.opcode = 0x10 ∧ c.n 8 1 = op)

/-- SESSION, OP IDENTITY (R446 to R448). -/
def execSessionIdentity (pair : Nat) (s : State) : Out :=
  cmdRow pair (isSession 0) (fun c s =>
    s.withHost c fun s => (s.identify (s.hostRead (c.n 16 8) 51200)).finish c 0 0) s

/-- SESSION, OP SEAL (R453, R460). -/
def execSessionSeal (pair : Nat) (s : State) : Out :=
  cmdRow pair (isSession 1) (fun c s =>
    match s.session c.session with
    | none => s.finish c 0x06 1
    | some _ =>
      let n := 4096 * c.n 24 8
      ((s.zeroRange (c.n 16 8) n).modLead fun l => { l with regions := l.regions ++ [⟨c.n 16 8, n, c.session⟩] }).finish c 0 0) s

/-- A blob's policy in force (R457). -/
def Session.policy (x : Session) (b : List Byte) : Session :=
  { x with dbgBase := field b 0 4, dbgLen := field b 4 4, relCounts := decide (field b 8 1 % 2 = 1), relStall := decide (field b 8 1 / 2 % 2 = 1) }

/-- An import blob that passed its checks, accepted: its SEQ, its measurement, and its policy (R449, R456, R457). -/
def Session.accept (x : Session) (hdr plain : List Byte) : Session :=
  let y := { x with seqIn := field hdr 8 8
                    work := Config.sha384 (bytesOf 48 x.work ++ bytesOf 48 (Config.sha384 (hdr ++ plain))) }
  if field hdr 4 2 = 1 then y.policy plain else y

/-- The status of a device access from its fault reason (Table 14.4). -/
def devStatus (r : Nat) : Nat := if r = 6 then 0x09 else if r = 7 then 0x0A else 0x0C

/-- SESSION, OP IMPORT (R456, R457, R459). -/
def execSessionImport (pair : Nat) (s : State) : Out :=
  cmdRow pair (isSession 2) (fun c s =>
    match s.session c.session with
    | none => s.finish c 0x06 1
    | some x =>
      s.withHost c fun s =>
        let blob := s.hostRead (c.n 16 8) (c.n 24 8)
        let hdr := blob.take 64
        let len := field hdr 24 8
        let kind := field hdr 4 2
        if c.n 24 8 ≠ 80 + len ∨ len % 8 ≠ 0 ∨ (kind = 1 ∧ len ≠ 16) then s.finish c 0x01 24
        else if field hdr 0 4 ≠ 0x42505147 ∨ 1 < kind ∨ field hdr 6 2 ≠ x.id then s.finish c 0x06 6
        else match Config.gcmOpen x.kImp ((hdr.drop 32).take 12) hdr ((blob.drop 64).take len) (blob.drop (64 + len)) with
          | none => s.finish c 0x06 6
          | some plain =>
            if field hdr 8 8 ≤ x.seqIn then s.finish c 0x06 7
            else if kind = 0 ∧ !s.inRegion (field hdr 16 8) len x.id then s.finish c 0x06 8
            else if kind = 1 then (s.modSession x.id fun x => x.accept hdr plain).finish c 0 0
            else s.givenUp c (field hdr 16 8) len fun s =>
              let (r, s1) := (s.modSession x.id fun x => x.accept hdr plain).devWrite (field hdr 16 8) plain x.id
              s1.finish c (if r = 0 then 0 else devStatus r) 0) s

/-- SESSION, OP EXPORT (R456). -/
def execSessionExport (pair : Nat) (s : State) : Out :=
  cmdRow pair (isSession 3) (fun c s =>
    match s.session c.session with
    | none => s.finish c 0x06 1
    | some x =>
      s.givenUp c (c.n 16 8) (c.n 24 8) fun s => match s.devRead (c.n 16 8) (c.n 24 8) x.id with
      | (0, plain, s1) =>
        s1.withHost c fun s1 =>
          let q := x.seqOut + 1
          let iv := le 8 q ++ le 4 0
          let hdr := le 4 0x42505147 ++ le 2 0 ++ le 2 x.id ++ le 8 q ++ le 8 (c.n 16 8) ++ le 8 (c.n 24 8) ++ iv ++ le 20 0
          ((s1.modSession x.id fun x => { x with seqOut := q }).hostWrite (c.n 32 8) (hdr ++ Config.gcmSeal x.kExp iv hdr plain)).finish c 0 0
      | (r, _, s1) => s1.finish c (devStatus r) 0) s

/-- SESSION, OP UNSEAL (R460). -/
def execSessionUnseal (pair : Nat) (s : State) : Out :=
  cmdRow pair (isSession 5) (fun c s =>
    match s.regionFrom (c.n 16 8) c.session with
    | none => s.finish c 0x06 8
    | some r => (s.unseal r).finish c 0 0) s

/-! ## Closing a session -/

/-- Every frame of a stream ends with ABORTED and its admission stops (R461). -/
def State.abortStream (s : State) (e st : Nat) : State :=
  let s1 := ((sget {} (s.eth e).streams st).frames.foldl (fun s f => s.abortFrame e st f.no) s).modStream e st fun y => { y with stopped := true }
  if (sget {} (s1.eth e).streams st).ending then s1.closeStream e st else s1

/-- A flow of a closing session: closed under R374, the frames of its stream aborted, its number reserved while the stream stays bound. -/
def State.closeBound (s : State) (e n : Nat) : State :=
  match (s.eth e).boundTo n with
  | none => (s.closeFlow e n).modFlow e n fun _ => { closed := true }
  | some st => ((s.closeFlow e n).modFlow e n fun _ => { closed := true, peerClosed := true }).abortStream e st

/-- Every flow of a session closed (R461, step 2). -/
def State.closeFlows (s : State) (session : Nat) : State :=
  (List.range 8).foldl (fun s e =>
    (((s.eth e).flows.filter fun p => decide (p.2.session = session)).map (·.1)).foldl (fun s n => s.closeBound e n) s) s

/-- Steps 1 and 2 of R461, taken once. -/
def State.beginClose (s : State) (n : Nat) : State :=
  if (s.session n).any (·.closing) then s
  else
    let s1 := s.modSession n fun x => { x with closing := true }
    let stands := s1.loadedStands.filter fun k => decide ((s1.stand k).session = n)
    (stands.foldl (fun s k => s.endRun k 0x11 0 0 0) s1).closeFlows n

/-- Whether an admitted command of a session, other than its CLOSE, is still in flight (R461, step 3). -/
def State.sessionBusy (s : State) (n : Nat) : Bool := s.leadCommands.any fun c => decide (c.session = n) && !isSession 4 c

/-- Steps 4 to 6 of R461. -/
def State.endClose (s : State) (n : Nat) : State :=
  let ws := (s.cores.filter fun p => decide (p.2.t.session = n)).map (·.1)
  let s1 := (ws.foldl (fun s w => s.modCore w Core.initField) s).bind 0 ws
  let s2 := (s1.lead.regions.filter fun r => decide (r.session = n)).foldl State.unseal s1
  s2.modLead fun l => { l with sessions := l.sessions.filter fun x => !decide (x.id = n) }

/-- SESSION, OP CLOSE (R461): steps 1 and 2; the rest once the session's commands have completed. -/
def execSessionClose (pair : Nat) (s : State) : Out :=
  cmdRow pair (isSession 4) (fun c s =>
    match s.session c.session with
    | none => s.finish c 0x06 1
    | some _ =>
      let s1 := s.beginClose c.session
      if s1.sessionBusy c.session then s1.modPair c.pair fun p => { p with admitted := c :: p.admitted }
      else (s1.endClose c.session).finish c 0 0) s

/-- CLOSE_MESSAGE (R461, Table 19.3): answered with CLOSED once the close is complete. -/
def execCloseMessage (msg : List Byte) (s : State) : Out :=
  .next (s.doeRow 4 24 true msg fun s =>
    let n := field msg 2 2
    match s.session n with
    | none => s.doeError n 6
    | some x =>
      if Config.gmac x.kCtl (msg.take 8) ≠ msg.drop 8 then s.doeError n 4
      else
        let s1 := s.beginClose n
        if s1.sessionBusy n then s1 else (s1.endClose n).doeReply (doeHeader 0x84 n 8))

/-! ## Link keys -/

/-- IDE_KEYS (R462). -/
def execIdeKeys (msg : List Byte) (s : State) : Out :=
  .next (s.doeRow 5 36 false msg fun s =>
    let n := field msg 2 2
    match s.session n with
    | none => s.doeError n 6
    | some x =>
      match Config.gcmOpen x.kCtl ((msg.drop 8).take 12) [] ((msg.drop 20).take (msg.length - 36)) (msg.drop (msg.length - 16)) with
      | none => s.doeError n 4
      | some k => ({ s with cxl := { s.cxl with ideNext := some k } } : State).doeReply (doeHeader 0x85 n 8))

/-- IDE_KEY_SWITCH (R462). -/
def execIdeKeySwitch (s : State) : Out :=
  .next (match s.cxl.ideNext with
    | some k => { s with cxl := { s.cxl with ide := some k, ideNext := none } }
    | none => s)

/-- DOE_DISCOVERY (R326): entry 0 is discovery itself, entry 1 the attestation object type. -/
def execDoeDiscovery (idx : Nat) (s : State) : Out :=
  .next (if !s.cxl.link then s
    else s.doeReply (match idx with
      | 0 => le 2 1 ++ le 1 0 ++ le 1 1
      | 1 => bytesOf 3 Config.doeObject ++ le 1 0
      | _ => le 2 0xFFFF ++ le 2 0))

end Sys2Proof.Machine
end

