-- ==== Sys2Proof/Machine/Startup.lean ====
section
/-! DEFINITION. Power and start-up, firmware, self-test, resets, the board-test and management ports (R395, R396, R412, R416, R417,
R424, R464 to R478, R498, R499, R505 to R510). -/
namespace Sys2Proof.Machine

/-! ## Supply -/

/-- POWER_APPLIED (R465, R505): the input rises past the start threshold, and the rails are good. -/
def execPowerApplied (s : State) : Out :=
  .next (if s.input.armed && !s.input.run then { s with input := { s.input with vin := true, run := true, rails := true } } else s)

/-- START_ABANDONED (R506, R509). -/
def execStartAbandoned (s : State) : Out :=
  .next (if s.input.armed && !s.input.run then { s with input := { s.input with vin := false, armed := false, trip := true } } else s)

/-- INPUT_POWER_REMOVED (R5, R476, R506): a running module trips as the input falls. -/
def execInputPowerRemoved (s : State) : Out :=
  .next (let s1 := if s.input.run then s.tripAll else s
    { s1 with input := { s1.input with vin := false } })

/-- REARM (R507): the input has stayed below 5.0 V for 1 s. -/
def execRearm (s : State) : Out :=
  .next (if s.input.run then s else { s with input := { s.input with vin := false, armed := true, trip := false } })

/-- A trip of a module that runs (R412). -/
def State.tripNow (s : State) : State := if s.input.run then s.tripAll else s

/-- TRIP (R412, R506). -/
def execTrip (_cause die : Nat) (s : State) : Out := guard (decide (die < 25)) s.tripNow
/-- CONVERTER_FAULT (R412, R506). -/
def execConverterFault (die : Nat) (s : State) : Out := guard (decide (die < 25)) s.tripNow
/-- INPUT_VOLTAGE_OUT_OF_RANGE (R402, R506): an input in millivolts above 62.0 V or below 38.0 V. -/
def execInputVoltageOutOfRange (mv : Nat) (s : State) : Out := .next (if 62000 < mv ∨ mv < 38000 then s.tripNow else s)

/-- AUX_SUPPLY_APPLIED (R510). -/
def execAuxSupplyApplied (s : State) : Out := .next { s with input := { s.input with aux := true } }
/-- AUX_SUPPLY_REMOVED (R510): the ports that it powers lose their state. -/
def execAuxSupplyRemoved (s : State) : Out := .next { s with input := { s.input with aux := false }, bt := {} }

/-- TRIP# is pulled low: a trip or an abandoned start, with 3V3_AUX present (R509). -/
def Input.tripLow (x : Input) : Bool := x.trip && x.aux
/-- PG is released (R509). -/
def Input.pg (x : Input) : Bool := x.run && x.rails

/-! ## Trunks and the lead -/

/-- A die missing: its ports ABSENT, its groves unavailable (R10, R466). -/
def State.missDie (s : State) (d : Nat) : State :=
  let s1 := s.modDie d fun x => { x with missing := true }
  let mask := (diePorts d).foldl (fun (m : BitVec 64) p => setFld m p 1 1) 0
  (dieGroves d).foldl State.takeUnavail (s1.modLead fun l => { l with absent := l.absent ||| mask, failed := l.failed ||| mask })

/-- Whether a coordinate that a die has read names a place (R10). -/
def placed (c : Option (BitVec 3 × BitVec 3)) : Bool :=
  match c with
  | some (dx, dy) => decide (dx.toNat ≤ 4 ∧ dy.toNat ≤ 4)
  | none => false

/-- TRUNK_POWER_UP (R10, R74, R424, R465): the die reads dx and dy from its position inputs, once, and its die cycles count from 0. The
carrier wires them to name the die; a reading above 4 names no place. -/
def execTrunkPowerUp (p : Position) (s : State) : Out :=
  guard (decide (p.die < 25) && (!placed (some (p.dx, p.dy)) || decide (5 * p.dy.toNat + p.dx.toNat = p.die)))
    (if s.input.rails && decide ((s.die p.die).phase = 0) then
       s.modDie p.die fun d => { d with phase := 1, coord := some (p.dx, p.dy), cyc := 0, stewCyc := 0 } else s)

/-- TRUNK_BIST_DONE (R10, R424, R465, R466): a pass of a die with a place is a report; with the last of the 25 the wait ends. Any other die
keeps its stewards in reset and joins neither the mesh nor the understory. -/
def execTrunkBistDone (die : Nat) (pass : Bool) (s : State) : Out :=
  guard (decide (die < 25))
    (if (s.die die).phase ≠ 1 then s
     else
       let s1 := s.modDie die fun d => { d with phase := if pass && placed d.coord then 2 else 3 }
       if (List.range 25).all fun d => decide ((s1.die d).phase = 2) then s1.modLead fun l => { l with closed := true } else s1)

/-- LEAD_REPORT_TIMEOUT (R10, R466): the dies that have not reported are missing. -/
def execLeadReportTimeout (s : State) : Out :=
  .next (if (s.die 2).phase ≠ 2 ∨ s.lead.closed then s
    else (((List.range 25).filter fun d => decide ((s.die d).phase ≠ 2)).foldl State.missDie s).modLead fun l => { l with closed := true })

/-! ## Stacks and the link -/

/-- STACK_TRAINING_DONE (R301, R465). -/
def execStackTrainingDone (port : Nat) (pass : Bool) (s : State) : Out :=
  guard (decide (port < 64))
    (if !s.dieUp (portDie port) || decide ((s.port port).train ≠ 0) then s
     else if pass then s.modPort port fun p => { p with train := 1 }
     else (s.modPort port fun p => { p with train := 3 }).modLead fun l =>
       { l with absent := setFld l.absent port 1 1, failed := setFld l.failed port 1 1 })

/-- STACK_ZEROING_DONE (R310, R465): every line of the port holds zero. -/
def execStackZeroingDone (port : Nat) (s : State) : Out :=
  guard (decide (port < 64))
    (if !s.dieUp (portDie port) || decide ((s.port port).train ≠ 1) then s
     else ({ s with mem := sclear s.mem (memKey port 0) (2 ^ 35) } : State).modPort port fun p => { p with train := 2, err := [] })

/-- CXL_LINK_UP (R326, R465, R509). -/
def execCxlLinkUp (s : State) : Out :=
  .next (if s.dieUp 2 && !s.input.perst then { s with cxl := { s.cxl with link := true } } else s)

/-! ## Start reports -/

/-- The groves that exist as far as the lead knows: not unavailable. -/
def State.liveGroves (s : State) : List Nat := (List.range 750).filter fun g => !(s.grove g).unavail

/-- A START_REPORT record placed in the backlog (R474): KIND 0 THYME, 1 SERVICE. -/
def State.startReport (s : State) (kind : Nat) : State :=
  let service := decide (kind = 1)
  let rows := fun (p : Nat → Bool) => (s.groves.map fun g => (g.2.codes.filter fun c => p c.2.toNat).length).foldl (· + ·) 0
  let bad := (s.groves.filter fun g => g.2.codes.any fun c => decide (c.2 = 31)).length
  s.post { type := 0x23, len := 3,
           body := le 1 kind ++ bytesOf 1 Config.romRev ++ le 2 0 ++ le 4 s.dieMap ++ bytesOf 8 s.lead.failed
                   ++ le 2 (if service then bad else 0) ++ le 2 (if service then s.lead.untested else 0)
                   ++ le 2 (if service then rows (fun c => decide (c < 16)) else 0) ++ le 2 0
                   ++ (if service then bytesOf 4 (s.die 2).version else le 4 0) ++ le 4 s.lead.cls.toNat ++ le 8 0 }

/-- THYME_ENTRY (R465, R467): every present port has finished training and zeroing, and the link is in L0. -/
def execThymeEntry (s : State) : Out :=
  .next (if s.lead.state = 0 ∧ s.lead.closed ∧ s.cxl.link ∧
      ((List.range 64).all fun m => !s.dieUp (portDie m) || decide (2 ≤ (s.port m).train)) then
      ({ s with cxl := { s.cxl with memActive := true }, lead := { s.lead with state := 1 } } : State).startReport 0
    else s)

/-! ## Groves -/

/-- GROVE_POWER_STEP (R130, R398, R421, R429, R465): the next grove of the power-up sequence, then those that wait for a step. -/
def execGrovePowerStep (s : State) : Out :=
  .next (if !s.lead.closed || !s.stewards s.leadDie then s
    else if s.lead.gstep < 750 then
      let g := s.lead.gstep
      let s1 := if (s.grove g).unavail then s
        else ((s.modGrove g fun x => { x with on := true }).eachCore g Core.initField)
      s1.modLead fun l => { l with gstep := g + 1 }
    else match s.nextStep with
      | some g => s.switchOn g
      | none => s)

/-- POWERUP_SELF_TEST (R424, R469): every grove that is not cleared is isolated and tested. -/
def execPowerupSelfTest (s : State) : Out :=
  .next (if s.lead.gstep < 750 ∨ !s.lead.fwValid ∨ s.lead.state ≠ 1 ∨ s.lead.selfTest then s
    else
      (s.liveGroves.filter fun g => decide ((s.grove g).state ≠ 3 ∧ (s.grove g).state ≠ 4)).foldl (fun s g =>
        (s.modGrove g fun x => { x with selfTest := true, gated := false }).flush g false)
        (s.modLead fun l => { l with selfTest := true }))

/-- What a list says of grove g. -/
def ofGrove (g : Nat) (l : List (Nat × α)) : List α := (l.filter fun p => decide (p.1 = g)).map (·.2)

/-- The power-up test of grove g ends at the default P: its registers, its failures, its codes (R419, R420, R422 to R425). -/
def State.endSelfTest (s : State) (g : Nat) (memory : List Nat) (sigs trunk : Sigs) : State :=
  let expected := s.expectedSig 16384
  let wrong := wrongSigs expected sigs ++ wrongSigs (expectedTrunk g) trunk
  ((s.reinit g).setCodes g (failsOf memory wrong)).modGrove g fun x =>
    { x.ranBist 16384 expected sigs with
      selfTest := false
      trunkSigs := (List.range (18 * 16)).map fun p => (p, ((trunk.find? fun q => decide (q.1 = p)).map (·.2)).getD (expectedTrunk g p)) }

/-- POWERUP_SELF_TEST_DONE (R419 to R425, R469, R474): by grove, the positions where memory BIST found a bad cell, the core-field and row
signatures, and the trunk signatures (log 61). -/
def execPowerupSelfTestDone (x : PowerupEnd) (s : State) : Out :=
  .next (if !s.lead.selfTest then s
    else
      let tested := s.liveGroves.filter fun g => (s.grove g).selfTest
      let left := s.liveGroves.length - tested.length
      let s1 := tested.foldl (fun s g =>
        s.endSelfTest g (ofGrove g x.memory) (ofGrove g x.sigs) (ofGrove g x.trunk)) s
      (s1.modLead fun l => { l with selfTest := false, untested := left, state := 2 }).startReport 1)

/-! ## Firmware -/

/-- A die runs an image: its measurement and version (R449, R451). -/
def State.runImage (s : State) (img : List Byte) (d : Nat) : State :=
  s.modDie d fun x => { x with digest := Config.sha384 img, version := imageVersion img }

/-- FW_LOAD, OP LOAD (R443, R472): the lead verifies the image and copies it to every present die. -/
def execFwLoadLoad (pair : Nat) (s : State) : Out :=
  cmdRow pair (fun c => decide (c.opcode = 0x0E ∧ c.n 20 1 = 0)) (fun c s =>
    s.withHost c fun s =>
      let img := s.hostRead (c.n 8 8) (c.n 16 4)
      if !imageOk img (c.n 16 4) then s.finish c 0x06 5
      else s.modLead fun l =>
        { l with fw := some { cmd := c, load := true, image := img, left := (List.range 25).filter s.dieUp } }) s

/-- FW_LOAD, OP SET_STATE (R473). -/
def execFwLoadSetState (pair : Nat) (s : State) : Out :=
  cmdRow pair (fun c => decide (c.opcode = 0x0E ∧ c.n 20 1 = 1)) (fun c s =>
    (s.modLead fun l => { l with state := BitVec.ofNat 3 (c.n 21 1) }).finish c 0 0) s

/-- The next die of an update stops its stewards; for die 2 the lead role passes to die 12 first (R396, R417). -/
def State.nextUpdate (s : State) (j : FwJob) : State :=
  match j.left with
  | [] => s
  | d :: _ =>
    let s1 := s.modDie d fun x => { x with updating := true }
    if d = 2 then s1.modLead fun l => { l with leadAlt := true } else s1

/-- FW_UPDATE (R416, R417, R443, R444). -/
def execFwUpdate (pair : Nat) (s : State) : Out :=
  cmdRow pair (fun c => decide (c.opcode = 0x0F)) (fun c s =>
    s.withHost c fun s =>
      let img := s.hostRead (c.n 8 8) (c.n 16 4)
      if !imageOk img (c.n 16 4) then s.finish c 0x06 5
      else
        let named := (List.range 25).filter fun d => (c.n 20 4).testBit d
        let j : FwJob := { cmd := c, load := false, image := img, left := (named.filter (· ≠ 2)) ++ named.filter (· = 2) }
        (s.modLead fun l => { l with fw := some j }).nextUpdate j) s

/-- A die's answer to a start of firmware: the last one ends FW_LOAD (R472). -/
def State.loadReady (s : State) (j : FwJob) (d : Nat) (ok : Bool) : State :=
  let k := { j with left := j.left.erase d, failed := if ok then j.failed else j.failed ++ [d] }
  if !k.left.isEmpty then s.modLead fun l => { l with fw := some k }
  else if !k.failed.isEmpty then s.finishJob k 0x05 (dieMask k.failed)
  else (((List.range 25).filter s.dieUp).foldl (fun s d => s.runImage k.image d) (s.modLead fun l => { l with fwValid := true })).finishJob k 0 0

/-- A die's answer within FW_UPDATE (R417). -/
def State.updateReady (s : State) (j : FwJob) (d : Nat) (ok : Bool) : State :=
  if !ok then s.stopUpdate d
  else
    let s1 := s.updateOver d
    let k := { j with left := j.left.drop 1, done := j.done ++ [d] }
    let s2 := (s1.runImage j.image d).thermal 12 (some d) 0 0
    if k.left.isEmpty then s2.finishJob k 0 (dieMask k.done) else (s2.modLead fun l => { l with fw := some k }).nextUpdate k

/-- DIE_FW_READY (R417, R444, R472): a die's new image reports ready, or fails to. -/
def execDieFwReady (die : Nat) (ok : Bool) (s : State) : Out :=
  guard (decide (die < 25))
    (match s.lead.fw with
     | none => s
     | some j =>
       if (ok && !s.dieUp die) || (if j.load then decide (die ∉ j.left) else decide (j.left.head? ≠ some die)) then s
       else if j.load then s.loadReady j die ok
       else s.updateReady j die ok)

/-! ## Function reset -/

/-- The lead's queues after a function reset: admitted commands, the backlog and the debug records discarded; tests that run go on
(R477). -/
def Lead.afterFunction (l : Lead) : Lead :=
  { l with
    winBase := 0, winSize := 0, setupCode := 0, setupRing := 0, evtLost := 0, hwinErr := 0, turn := 0, toPost := [], backlog := [],
    lostNow := 0, dbgLog := [], dbgLost := 0, dmaWait := [], sessions := [],
    tests := (l.tests.take 1).map (fun t => { t with cmd := none }) ++ (l.tests.drop 1).filter (fun t => t.cmd.isNone),
    returns := l.returns.filter (fun r => r.2.1.isNone), fw := l.fw.bind FwJob.drop }

/-- The core resets of a function reset (R477, step 6). -/
def State.resetCores (s : State) : State :=
  (s.groves.map (·.1)).foldl (fun s g =>
    let st := (s.grove g).state
    if st = 1 ∨ st = 2 then (s.wake g).eachCore g Core.reset
    else if st = 3 then s.eachCore g fun c => { c with t := { c.t with resetMark := true } }
    else s) s

/-- The transfers of every engine discarded. -/
def State.dropTransfers (s : State) : State :=
  s.engines.foldl (fun s e =>
    (((s.engine e.1).xfers.foldl (fun s x => s.untrack e.1 x) s)).modEngine e.1 fun x => { x with xfers := [], replies := [] }) s

/-- The frame streams aborted and closed (R477, step 2). -/
def State.dropStreams (s : State) : State :=
  { s with eths := s.eths.map fun e =>
      (e.1, { e.2 with
        streams := e.2.streams.map fun y => (y.1, { y.2 with open_ := false, frames := [], ending := false, closing := [] })
        flows := (e.2.flows.filter fun f => f.2.open_ || f.2.closed).map fun f => (f.1, if f.2.open_ then f.2 else { closed := true }) }) }

/-- A function reset (R476, R477). -/
def State.functionReset (s : State) : State :=
  let quiet := { s with pairs := [], lead := { s.lead with fw := s.lead.fw.bind FwJob.drop } }
  let s1 := (s.lead.sessions.map (·.id)).foldl (fun s n => (s.beginClose n).endClose n) quiet
  let s2 := s1.dropStreams
  let s3 := s2.loadedStands.foldl State.unload s2
  let s4 := s3.dropTransfers
  let s5 : State :=
    { s4 with
      pairs := [], events := {}, debug := {}, lead := s4.lead.afterFunction
      cxl := { link := s4.cxl.link, memActive := s4.cxl.memActive, cut := s4.cxl.cut, leadFails := s4.cxl.leadFails, direct := s4.cxl.direct }
      ports := s4.ports.map fun p => (p.1, { p.2 with filter := [], snoop := [], hostq := [], wanted := []
                                                      reqs := p.2.reqs.filter fun q => !q.host }) }
  let s6 := (s5.ports.map (·.1)).foldl State.place s5.resetCores
  if s6.lead.state = 0 then s6
  else if s6.lead.fwValid then (s6.modLead fun l => { l with state := 2 }).startReport 1
  else (s6.modLead fun l => { l with state := 1 }).startReport 0

/-- FUNCTION_RESET (R476, R477). -/
def execFunctionReset (s : State) : Out := .next (if s.cxl.link then s.functionReset else s)

/-- The link goes down, and a function reset follows (R476, R509). -/
def State.linkDown (s : State) : State :=
  if !s.cxl.link then s else let s1 := s.functionReset; { s1 with cxl := { s1.cxl with link := false } }

/-- CXL_LINK_DOWN (R476). -/
def execCxlLinkDown (s : State) : Out := .next s.linkDown

/-- PERST_ASSERT (R509). -/
def execPerstAssert (s : State) : Out := .next (let s1 := s.linkDown; { s1 with input := { s1.input with perst := true } })
/-- PERST_DEASSERT (R509). -/
def execPerstDeassert (s : State) : Out := .next { s with input := { s.input with perst := false } }

/-- LIGHT_GROVE_DEFERRED_RESET (R477): a marked core whose grove has left LIGHT. -/
def execLightGroveDeferredReset (c : Nat) (s : State) : Out :=
  guard (coreOk c) (if (s.core c).t.resetMark ∧ s.gstate c ≠ 3 then s.modCore c Core.reset else s)

/-- CORE_RESET (R478). -/
def execCoreReset (c : Nat) (s : State) : Out := s.writeReg c 0xDA0 1

/-! ## Board test and management -/

/-- The state with its board-test and management ports changed, while 3V3_AUX is present (R510). -/
def State.onAux (s : State) (f : State → State) : State := if s.input.aux then f s else s

/-- BYPASS (R498). -/
def execBypass (s : State) : Out := .next (s.onAux fun s => { s with bt := { s.bt with instr := 0 } })
/-- IDCODE (R498). -/
def execIdcode (s : State) : Out :=
  .next (s.onAux fun s => { s with bt := { s.bt with instr := 1, idcode := bytesOf 4 Config.idcode } })
/-- SAMPLE_PRELOAD (R498, R510): with the converters off the port answers BYPASS and IDCODE only. -/
def execSamplePreload (pins : List Bool) (s : State) : Out :=
  .next (s.onAux fun s => if s.input.run then { s with bt := { s.bt with instr := 2, pins := pins } } else s)
/-- EXTEST (R498, R510). -/
def execExtest (s : State) : Out :=
  .next (s.onAux fun s => if s.input.run then { s with bt := { s.bt with instr := 3 } } else s)

/-- Whether EXTEST drives the contacts: otherwise the port behaves as BYPASS (R498). -/
def State.extestDrives (s : State) : Bool :=
  decide (s.bt.instr = 3) && s.input.run && !s.cxl.link && (List.range 8).all fun e => decide ((s.eth e).rate = 0)

/-- ENTDAA (R499). -/
def execEntdaa (addr : BitVec 7) (s : State) : Out := .next (s.onAux fun s => { s with bt := { s.bt with i3c := some addr } })

/-- MOD_STATUS (Table 14.1). -/
def State.modStatus (s : State) : Word := pack [(s.lead.state.toNat, 0), (b2n s.lead.fwValid, 3), (b2n s.lead.leadAlt, 4)]

/-- CFG of a record ring as it reads (Table 14.1). -/
def Ring.cfg (x : Ring) : Word :=
  pack [(x.log.toNat, 0), (b2n x.en, 8), (b2n x.irqEn, 9), (x.vector.toNat, 10), (x.irqCount.toNat, 16)]

/-- Reads of a record ring's BASE_LO, BASE_HI, CFG and TAIL, at 0, 4, 8 and 12 (Table 14.1). -/
def Ring.read (x : Ring) (k : Nat) : Word :=
  match k with
  | 0 => fld x.base 0 32
  | 4 => fld x.base 32 32
  | 8 => x.cfg
  | _ => pack [(x.tail, 0), (b2n x.phase, 16)]

/-- Reads of the registers of pair q, the one that clears too (Table 14.1). -/
def State.pairRead (s : State) (q k : Nat) : Word × State :=
  let p := s.pair q
  let x := p.cq
  match k with
  | 0x00 => (fld p.base 0 32, s)
  | 0x04 => (fld p.base 32 32, s)
  | 0x08 => (pack [(p.log.toNat, 0), (b2n p.en, 8)], s)
  | 0x0C => (pack [(p.head, 0)], s)
  | 0x20 => (pack [(p.inflight, 0), (b2n x.waits, 9)], s)
  | 0x24 => (x.refused.setWidth 32, s.modPair q fun p => { p with cq := { p.cq with refused := 0 } })
  | _ => (if 0x10 ≤ k ∧ k < 0x20 then x.read (k - 0x10) else 0, s)

/-- What the host reads at an offset of BAR0, and the state after the read: SETUP_ERR, EVT_LOST, HWIN_ERR and CQ_REFUSED clear (R333,
Table 14.1). UNDERSTORY_ACCESS names it with BAR0 as its target (log 20). -/
def State.bar0Read (s : State) (off : Nat) : Word × State :=
  let l := s.lead
  if !s.bar0 ∨ off % 4 ≠ 0 then (0, s)
  else match off with
    | 0x00 => (0x32575147, s)
    | 0x04 => (0x31412D35, s)
    | 0x08 => (pack [(Config.hwRev.toNat, 0), (Config.romRev.toNat, 8)], s)
    | 0x0C => (s.modStatus, s)
    | 0x10 => (BitVec.ofNat 32 s.dieMap, s)
    | 0x14 => (pack [(l.cls.toNat, 0), (b2n (decide (l.cls ≠ 0)), 2)], s)
    | 0x18 => (fld l.winBase 0 32, s)
    | 0x1C => (fld l.winBase 32 32, s)
    | 0x20 => (l.winSize.setWidth 32, s)
    | 0x24 => (pack [(l.setupCode.toNat, 0), (l.setupRing.toNat, 4)], s.modLead fun l => { l with setupCode := 0, setupRing := 0 })
    | 0x28 => (l.evtLost, s.modLead fun l => { l with evtLost := 0 })
    | 0x2C => (l.hwinErr, s.modLead fun l => { l with hwinErr := 0 })
    | _ =>
      if 0x100 ≤ off ∧ off < 0x120 then ((s.ring (64 + (off - 0x100) / 16)).read (off % 16), s)
      else if 0x1000 ≤ off ∧ off < 0x2000 then s.pairRead ((off - 0x1000) / 64) (off % 64)
      else (0, s)

/-- DIE_TEMP of the hottest present die, the lowest index among equals (R499). -/
def State.hottestDie (s : State) : Word :=
  let ds := (List.range 25).filter s.dieUp
  let h := fun (d : Nat) => tempOf (hottest (s.sensors d)).1
  match ds with
  | [] => 0
  | d :: rest => s.dieTemp (rest.foldl (fun b d => if h b < h d then d else b) d)

/-- What an I3C private read answers; none for a register that the target does not have (R499, R510). The input voltage is measured. -/
def State.i3cValue (s : State) (reg : Nat) : Option (List Byte) :=
  let on := s.input.run
  let word := fun (v : Word) => some (bytesOf 4 (if on then v else 0))
  match reg with
  | 0x00 => word s.modStatus
  | 0x04 => word (BitVec.ofNat 32 s.dieMap)
  | 0x08 => word (BitVec.ofNat 32 s.lead.watts)
  | 0x0C => some (bytesOf 4 (Config.freeWord s.free))
  | 0x10 => word s.hottestDie
  | _ =>
    let d := (reg - 0x100) / 0x80
    if 0x100 ≤ reg ∧ (reg - 0x100) % 0x80 = 0 ∧ d < 25 then some (padTo 97 (if on then (s.die d).pubKey else [])) else none

/-- I3C_PRIVATE_READ (R499, R510). -/
def execI3cPrivateRead (reg : Nat) (s : State) : Out :=
  .next (s.onAux fun s =>
    if s.bt.i3c.isNone then s
    else match s.i3cValue reg with
      | none => s
      | some v => { s with bt := { s.bt with answer := v }, free := if reg = 0x0C then s.free + 1 else s.free })

end Sys2Proof.Machine
end

