-- ==== Sys2Proof/Machine/Issuing.lean ====
section
/-! DEFINITION. An instruction named by its own command (R57, R87, R89): thread t of core c issues it, apart from its latencies, its
fetch and its slot (log 7). -/
namespace Sys2Proof.Machine

/-- Whether the cores of a grove run: the grove is ON, and no core reset of this core is due (Table 17.3, R477). -/
def State.runs (s : State) (w : Nat) : Bool := decide (s.gstate w = 1) && !(s.core w).t.resetMark

/-- The core after trying to issue an instruction: where it does not issue, only its wait remains (R89). -/
def IssueOut.core : IssueOut → Core
  | .held c _ => c
  | .done c => c

/-- Thread t of core c tries to issue an instruction under condition k: a resumable one does all its units, but for a stepping thread,
which stops at the first progress point (R485). -/
def Core.tryIssue (x : Core) (e : Env) (t : Nat) (k : BitVec 4) (op : Op) : Core :=
  (x.issue Core.raise t k (encOk k op) (encodeOp k op) op
    (runOp { e with word := encodeOp k op, whole := e.whole && !(x.th t).stepping } t op)).core

/-- The VROUTE or VDELTA, TLD or TST that thread t has in progress as this very instruction goes on until it completes, stops, or waits
for the channel (R114). -/
def Core.tryGoOn (x : Core) (t : Nat) (k : BitVec 4) (op : Op) : Core :=
  match x.inProgress.find? fun r => decide (r.thread.toNat = t ∧ r.op = op ∧ r.word = encodeOp k op) with
  | none => x
  | some r => x.carry Core.raise r (x.unitsLeft r)

/-- The core with its die's cycle count (R74, R299). -/
def Core.inCycle (x : Core) (n : DWord) : Core := { x with t := { x.t with cyc := n } }

/-- An instruction row: the core issues it where its thread may issue, or carries it on where the thread has it in progress; what it
asks of the module follows. -/
def State.issueInstr (s : State) (c : Nat) (t : Fin 4) (k : BitVec 4) (op : Op) : Out :=
  guard (coreOk c)
    (if !s.runs c then s
     else if (s.core c).canIssue t.val then s.onCore c fun x => (x.inCycle (s.die (dieOf c)).cyc).tryIssue (s.env c) t.val k op
     else if (s.core c).running t.val then s.onCore c fun x => (x.inCycle (s.die (dieOf c)).cyc).tryGoOn t.val k op
     else s)

end Sys2Proof.Machine
end

