-- ==== Sys2Proof/Machine/CapRows.lean ====
section
/-! DEFINITION. The capability and save-set rows (R101 to R103, R116 to R118), and the remote write (R138). -/
namespace Sys2Proof.Machine

/-- CLD (R101). -/
def execCld (c : Nat) (t : Fin 4) (k cd cb : BitVec 4) (ga : BitVec 5) (s : State) : Out :=
  s.issueInstr c t k (.cld cd cb ga)

/-- CST (R101). -/
def execCst (c : Nat) (t : Fin 4) (k cs cb : BitVec 4) (ga : BitVec 5) (s : State) : Out :=
  s.issueInstr c t k (.cst cs cb ga)

/-- CMOV (R101). -/
def execCmov (c : Nat) (t : Fin 4) (k cd cs : BitVec 4) (s : State) : Out :=
  s.issueInstr c t k (.cmov cd cs false)

/-- CCLR (R101). -/
def execCclr (c : Nat) (t : Fin 4) (k cd cs : BitVec 4) (s : State) : Out :=
  s.issueInstr c t k (.cmov cd cs true)

/-- CNARROW (R102). -/
def execCnarrow (c : Nat) (t : Fin 4) (k cd cs : BitVec 4) (ga gb : BitVec 5) (s : State) : Out :=
  s.issueInstr c t k (.cnarrow cd cs ga gb)

/-- CINFO (R101). -/
def execCinfo (c : Nat) (t : Fin 4) (k : BitVec 4) (gd : BitVec 5) (cs : BitVec 4) (field : BitVec 3) (s : State) : Out :=
  s.issueInstr c t k (.cinfo gd cs field)

/-- CSTAMP (R103). -/
def execCstamp (c : Nat) (t : Fin 4) (k cd cs ca : BitVec 4) (ga : BitVec 5) (s : State) : Out :=
  s.issueInstr c t k (.cstamp cd cs ca ga)

/-- CREDEEM (R103). -/
def execCredeem (c : Nat) (t : Fin 4) (k cd cs ca : BitVec 4) (s : State) : Out :=
  s.issueInstr c t k (.credeem cd cs ca)

/-- CTEST (R103). -/
def execCtest (c : Nat) (t : Fin 4) (k cs : BitVec 4) (ga : BitVec 5) (s : State) : Out :=
  s.issueInstr c t k (.ctest cs ga)

/-- CREVOKE (R103). -/
def execCrevoke (c : Nat) (t : Fin 4) (k ca : BitVec 4) (ga : BitVec 5) (s : State) : Out :=
  s.issueInstr c t k (.crevoke ca ga)

/-- TRAP (R116). -/
def execTrap (c : Nat) (t : Fin 4) (k : BitVec 4) (n : BitVec 8) (cs : BitVec 4) (s : State) : Out :=
  s.issueInstr c t k (.trap n cs)

/-- RFE (R118). -/
def execRfe (c : Nat) (t : Fin 4) (k csys : BitVec 4) (s : State) : Out :=
  s.issueInstr c t k (.rfe csys)

/-- SSRD (R116). -/
def execSsrd (c : Nat) (t : Fin 4) (k field : BitVec 4) (gd : BitVec 5) (set : Bool) (s : State) : Out :=
  s.issueInstr c t k (.ssrd field gd set)

/-- SSWR (R116). -/
def execSswr (c : Nat) (t : Fin 4) (k field : BitVec 4) (ga : BitVec 5) (set : Bool) (s : State) : Out :=
  s.issueInstr c t k (.sswr field ga set)

/-- SCRD (R116). -/
def execScrd (c : Nat) (t : Fin 4) (k : BitVec 4) (cfield : BitVec 2) (cd : BitVec 4) (set : Bool) (s : State) : Out :=
  s.issueInstr c t k (.scrd cfield cd set)

/-- SCWR (R116). -/
def execScwr (c : Nat) (t : Fin 4) (k : BitVec 4) (cfield : BitVec 2) (cs : BitVec 4) (set : Bool) (s : State) : Out :=
  s.issueInstr c t k (.scwr cfield cs set)

/-- REMOTE_WRITE (R138). -/
def execRemoteWrite (c : Nat) (t : Fin 4) (k cs : BitVec 4) (ga : BitVec 5) (len : BitVec 4) (rel : Bool) (s : State) : Out :=
  s.issueInstr c t k (.send cs ga len rel)

end Sys2Proof.Machine
end

