-- ==== Sys2Proof/Machine/ChanRows.lean ====
section
/-! DEFINITION. The stand, channel and stream rows (R234 to R236, R243, R252, R253, R260 to R275, R314 to R324), and the debug request (R480). -/
namespace Sys2Proof.Machine

/-- CTXSW (R243). -/
def execCtxsw (c : Nat) (t : Fin 4) (k : BitVec 4) (ctx disp : BitVec 2) (s : State) : Out :=
  s.issueInstr c t k (.ctxsw ctx disp)

/-- TSEND (R236). -/
def execTsend (c : Nat) (t : Fin 4) (k : BitVec 4) (port : BitVec 3) (va : BitVec 5) (len : BitVec 4) (rel : Bool) (s : State) : Out :=
  s.issueInstr c t k (.tsend port va len rel)

/-- TEND (R234). -/
def execTend (c : Nat) (t : Fin 4) (k : BitVec 4) (s : State) : Out :=
  s.issueInstr c t k (.tend)

/-- TDONE (R253). -/
def execTdone (c : Nat) (t : Fin 4) (k cs : BitVec 4) (ga : BitVec 5) (s : State) : Out :=
  s.issueInstr c t k (.tdone cs ga)

/-- STCTL_START (R253). -/
def execStctlStart (c : Nat) (t : Fin 4) (k cs : BitVec 4) (s : State) : Out :=
  s.issueInstr c t k (.stctl cs 0)

/-- STCTL_STOP (R253). -/
def execStctlStop (c : Nat) (t : Fin 4) (k cs : BitVec 4) (s : State) : Out :=
  s.issueInstr c t k (.stctl cs 1)

/-- STCTL_ABORT (R253). -/
def execStctlAbort (c : Nat) (t : Fin 4) (k cs : BitVec 4) (s : State) : Out :=
  s.issueInstr c t k (.stctl cs 2)

/-- TSTAT (R252). -/
def execTstat (c : Nat) (t : Fin 4) (k : BitVec 4) (gd : BitVec 5) (sel : BitVec 4) (s : State) : Out :=
  s.issueInstr c t k (.tstat gd sel)

/-- MPUT (R260). -/
def execMput (c : Nat) (t : Fin 4) (k : BitVec 4) (size : Bool) (r : BitVec 5) (idx : BitVec 4) (s : State) : Out :=
  s.issueInstr c t k (.mput size r idx)

/-- SEND (R261). -/
def execSend (c : Nat) (t : Fin 4) (k cs : BitVec 4) (ga : BitVec 5) (len : BitVec 4) (rel : Bool) (s : State) : Out :=
  s.issueInstr c t k (.send cs ga len rel)

/-- RECV (R265). -/
def execRecv (c : Nat) (t : Fin 4) (k cs : BitVec 4) (ga vd gd : BitVec 5) (s : State) : Out :=
  s.issueInstr c t k (.recv cs ga vd gd)

/-- CINC (R273). -/
def execCinc (c : Nat) (t : Fin 4) (k cs : BitVec 4) (ga gb : BitVec 5) (imm : Bool) (s : State) : Out :=
  s.issueInstr c t k (.cinc cs ga gb imm)

/-- CWAIT (R275). -/
def execCwait (c : Nat) (t : Fin 4) (k cs : BitVec 4) (ga gb : BitVec 5) (wide : Bool) (s : State) : Out :=
  s.issueInstr c t k (.cwait cs ga gb wide)

/-- CRD (R280). -/
def execCrd (c : Nat) (t : Fin 4) (k cs : BitVec 4) (ga gd : BitVec 5) (hi : Bool) (s : State) : Out :=
  s.issueInstr c t k (.crd cs ga gd hi)

/-- CHSTAT (R280). -/
def execChstat (c : Nat) (t : Fin 4) (k cs : BitVec 4) (ga gd : BitVec 5) (side : Bool) (s : State) : Out :=
  s.issueInstr c t k (.chstat cs ga gd side)

/-- SOPEN (R314). -/
def execSopen (c : Nat) (t : Fin 4) (k : BitVec 4) (stream : BitVec 2) (cm cr : BitVec 4) (ga : BitVec 5) (s : State) : Out :=
  s.issueInstr c t k (.sopen stream cm cr ga)

/-- SNEXT (R317). -/
def execSnext (c : Nat) (t : Fin 4) (k : BitVec 4) (stream : BitVec 2) (gd : BitVec 5) (s : State) : Out :=
  s.issueInstr c t k (.snext stream gd)

/-- SCLOSE (R319). -/
def execSclose (c : Nat) (t : Fin 4) (k : BitVec 4) (stream : BitVec 2) (s : State) : Out :=
  s.issueInstr c t k (.sclose stream)

/-- SRESUME (R322). -/
def execSresume (c : Nat) (t : Fin 4) (k : BitVec 4) (stream : BitVec 2) (s : State) : Out :=
  s.issueInstr c t k (.sresume stream)

/-- SSTAT (R324). -/
def execSstat (c : Nat) (t : Fin 4) (k : BitVec 4) (stream : BitVec 2) (gd : BitVec 5) (sel : BitVec 2) (s : State) : Out :=
  s.issueInstr c t k (.sstat stream gd sel)

/-- DEBUG_REQUEST (R480). -/
def execDebugRequest (c : Nat) (t : Fin 4) (k cs : BitVec 4) (ga : BitVec 5) (len : BitVec 4) (rel : Bool) (s : State) : Out :=
  s.issueInstr c t k (.send cs ga len rel)

end Sys2Proof.Machine
end

