-- ==== Sys2Proof/Machine/CoreRows.lean ====
section
/-! DEFINITION. The rows of a core's die cycle, its entries, its release queues and its registers (chapters 04 to 06, 08 to 11, 13,
21). -/
namespace Sys2Proof.Machine

/-! ## The die cycle -/

/-- The die cycle that core w runs next: the die's current one where the core has not run it, else the next (R74, R299; log 36). -/
def State.nextCyc (s : State) (w : Nat) : DWord :=
  let d := (s.die (dieOf w)).cyc
  if (s.core w).t.cyc < d then d else d + 1

/-- Whether the stand thread waits for token credit (R246). -/
def Core.waitsCredit (c : Core) (e : Env) : Bool :=
  let x := c.cand e 1
  decide (x.state = 9) && (match x.op with
    | some (_, .tsend ..) => true
    | _ => false)

/-- A die cycle of a core in a gated grove: the gated cycles count (R200), and the waits of its threads, whose counts are held in the trunk
(R246, R255, R281, Table 21.5). -/
def Core.gatedCycle (c : Core) (e : Env) : Core :=
  ((c.bump (cntSp 15) 1).countCycle (c.cands e)).countStall (c.waitsCredit e)

/-- A die cycle of a running core: ALIVE counts, and a thread is selected and issues (R84, R437). -/
def Core.runCycle (c : Core) (e : Env) : Core :=
  let c1 := c.cycle e
  { c1 with t := { c1.t with alive := c1.t.alive + 1 } }

/-- DIE_CYCLE_ISSUE (R84, R299): one die cycle of core c. -/
def execDieCycleIssue (c : Nat) (s : State) : Out :=
  guard (coreOk c)
    (if !s.dieUp (dieOf c) then s
     else
       let n := s.nextCyc c
       let s1 := s.modDie (dieOf c) fun d => { d with cyc := n }
       if s.runs c then s1.onCore c fun x => (x.inCycle n).runCycle (s.env c)
       else if s.gstate c = 2 then s1.modCore c fun x => (x.inCycle n).gatedCycle (s.env c)
       else s1.modCore c fun x => x.inCycle n)

/-- The oldest corrected word written back (R126). -/
def Spad.writeBack (sp : Spad) : Spad :=
  match sp.wb with
  | [] => sp
  | w :: rest => { sp with wb := rest, err := sset 0 sp.err w 0 }

/-- SPAD_WRITE_BACK (R126). -/
def execSpadWriteBack (c : Nat) (s : State) : Out :=
  guard (coreOk c)
    (if s.runs c then s.modCore c fun x => { x with f := { x.f with spad := x.f.spad.writeBack } } else s)

/-- A pending slot table that is due takes effect (R95). -/
def ThreadCtl.takeEffect (x : ThreadCtl) : ThreadCtl :=
  match x.slotDue, x.slotPend with
  | true, some v => { x with slotTable := v, slotPend := none, slotDue := false }
  | _, _ => x

/-- SLOT_TABLE_TAKES_EFFECT (R95). -/
def execSlotTableTakesEffect (c : Nat) (s : State) : Out :=
  guard (coreOk c)
    (if s.runs c then s.modCore c fun x => { x with f := { x.f with tc := x.f.tc.takeEffect } } else s)

/-! ## Entries -/

/-- The entry of a pending asynchronous cause (R109, R111); a stepping thread 0 stops on the vector (R486). -/
def Core.asyncEnter (c : Core) : Core :=
  match c.asyncDue with
  | none => c
  | some i =>
    let e := c.f.exc
    let th := c.th 0
    let f : FaultRec :=
      { cause := BitVec.ofNat 4 i, spc := th.pc, sinfo := sget 0 e.pinfo i, saddr := sget 0 e.paddr i, prog := th.prog }
    let e' := { e with pend := e.pend &&& ~~~(BitVec.ofNat 16 (2 ^ i)), pinfo := sset 0 e.pinfo i 0, paddr := sset 0 e.paddr i 0 }
    (({ c with f := { c.f with exc := e' } } : Core).enter 2 0 f true).endStep 0 th.stepping

/-- ASYNC_CAUSE_ENTRY (R111). -/
def execAsyncCauseEntry (c : Nat) (s : State) : Out :=
  guard (coreOk c) (if s.runs c then s.onCore c Core.asyncEnter else s)

/-- The entry of a waiting fault into the free L1 set; an L2 entry that is due goes first (R110). -/
def Core.waitingEnter (c : Core) : Core :=
  if !c.l1Open || c.f.exc.l2double then c
  else match c.nextWaiting with
    | none => c
    | some (t, f) => c.enterL1 t f

/-- WAITING_FAULT_ENTRY (R110). -/
def execWaitingFaultEntry (c : Nat) (s : State) : Out :=
  guard (coreOk c) (if s.runs c then s.onCore c Core.waitingEnter else s)

/-! ## Releases, detectors, stands -/

/-- RELEASE_TAKES_EFFECT (R135): the oldest release of thread t. -/
def execReleaseTakesEffect (c : Nat) (t : Fin 4) (s : State) : Out :=
  guard (coreOk c) (if s.runs c then s.onCore c fun x => x.releaseEffect c t.val else s)

/-- The quiescent-wait detector trips (R279). -/
def Core.quietTrip (c : Core) : Core :=
  match c.t.qwDue with
  | none => c
  | some st =>
    (({ c with t := { c.t with qwDue := none } } : Core).bump (cntChan 9) 1).raiseAsync 12 (st.setWidth 32) 0

/-- QUIESCENT_WAIT_TRIP (R279): an asynchronous cause wakes a gated grove (R200). -/
def execQuiescentWaitTrip (c : Nat) (s : State) : Out :=
  guard (coreOk c)
    (if (s.core c).t.qwDue.isSome && decide (s.gstate c = 1 ∨ s.gstate c = 2) then (s.wake (groveOf c)).onCore c Core.quietTrip else s)

/-- STALL_TRIP (R247): an asynchronous cause wakes a gated grove (R200). -/
def execStallTrip (c : Nat) (s : State) : Out :=
  guard (coreOk c)
    (if (s.core c).t.stallDue && decide (s.gstate c = 1 ∨ s.gstate c = 2) then (s.wake (groveOf c)).onCore c Core.stallTrip else s)

/-- FIRING (R232, R233). -/
def execFiring (c : Nat) (s : State) : Out :=
  guard (coreOk c)
    (if s.runs c then s.onCore c fun x => match x.firingOf with
      | some i => x.fire c i
      | none => x
     else s)

/-- CONTEXT_SWITCH (R244, R245). -/
def execContextSwitch (c : Nat) (s : State) : Out :=
  guard (coreOk c) (if s.runs c then s.onCore c fun x => x.doSwitch c else s)

/-- EXTENSION_REFILL (R241). -/
def execExtensionRefill (c : Nat) (s : State) : Out :=
  guard (coreOk c) (if s.runs c && (s.core c).refillDue.isSome then
      s.onCore c fun x => let y := x.refill c; { y with t := { y.t with rused := true } } else s)

/-- STREAM_REQUEST_ISSUE (R312, R316). -/
def execStreamRequestIssue (c : Nat) (s : State) : Out :=
  guard (coreOk c) (if s.runs c then s.onCore c fun x => x.issueReq c (s.resolve c) else s)

/-! ## Registers -/

/-- SLOT_TABLE_WRITE (R94). -/
def execSlotTableWrite (c : Nat) (v : Word) (s : State) : Out := s.writeReg c 0x40 v
/-- THREAD_CTL_WRITE (R95, R105). -/
def execThreadCtlWrite (c : Nat) (v : Word) (s : State) : Out := s.writeReg c 0x44 v
/-- L2_RELEASE (R118). -/
def execL2Release (c : Nat) (v : Word) (s : State) : Out := s.writeReg c 0x98 v
/-- CAP_SLOT_TAG_WRITE (R104): one of the eleven slots. -/
def execCapSlotTagWrite (c : Nat) (slot : BitVec 4) (v : Word) (s : State) : Out :=
  if slot.toNat ≤ 10 then s.writeReg c (0xB0 + 0x20 * slot.toNat) v else guard (coreOk c) s
/-- OCRED_CTL_WRITE (R143). -/
def execOcredCtlWrite (c : Nat) (entry : BitVec 4) (v : Word) (s : State) : Out := s.writeReg c (0x444 + 0x10 * entry.toNat) v
/-- IWIN_CTL_WRITE (R143). -/
def execIwinCtlWrite (c : Nat) (win : BitVec 4) (v : Word) (s : State) : Out := s.writeReg c (0x344 + 0x10 * win.toNat) v
/-- SP_CNT_CLR (R202). -/
def execSpCntClr (c : Nat) (v : Word) (s : State) : Out := s.writeReg c 0x628 v
/-- RT_CFG_WRITE (R204). -/
def execRtCfgWrite (c : Nat) (v : Word) (s : State) : Out := s.writeReg c 0x600 v
/-- DL_LAYER_WRITE (R206). -/
def execDlLayerWrite (c : Nat) (layer : BitVec 4) (v : Word) (s : State) : Out := s.writeReg c (0x880 + 0x10 * layer.toNat) v
/-- DL_CNT_CLR (R226). -/
def execDlCntClr (c : Nat) (v : Word) (s : State) : Out := s.writeReg c 0x844 v
/-- CTXSW_REQ_WRITE (R243). -/
def execCtxswReqWrite (c : Nat) (v : Word) (s : State) : Out := s.writeReg c 0xC10 v
/-- TQ_CTL_WRITE (R238, R256). -/
def execTqCtlWrite (c : Nat) (q : BitVec 2) (v : Word) (s : State) : Out := s.writeReg c (0xC44 + 0x20 * q.toNat) v
/-- TPORT_CTL_WRITE (R256). -/
def execTportCtlWrite (c : Nat) (p : BitVec 3) (v : Word) (s : State) : Out := s.writeReg c (0xCC4 + 0x10 * p.toNat) v
/-- CONTEXT_STORE_WRITE (R230). -/
def execContextStoreWrite (c : Nat) (i : BitVec 9) (v : Word) (s : State) : Out := s.writeReg c (0x1000 + 4 * i.toNat) v
/-- K_ADD (R272). -/
def execKAdd (c : Nat) (v : Word) (s : State) : Out := s.writeReg c 0xE10 v
/-- CH_OUT_CTL_WRITE (R282). -/
def execChOutCtlWrite (c : Nat) (ep : BitVec 5) (v : Word) (s : State) : Out := s.writeReg c (0x1C04 + 0x20 * ep.toNat) v
/-- CH_IN_CTL_WRITE (R282). -/
def execChInCtlWrite (c : Nat) (ep : BitVec 5) (v : Word) (s : State) : Out := s.writeReg c (0x1C10 + 0x20 * ep.toNat) v
/-- STR_CTL_RESUME (R322). -/
def execStrCtlResume (c : Nat) (stream : BitVec 2) (s : State) : Out := s.writeReg c (0xF4C + 0x10 * stream.toNat) 1
/-- STR_CTL_ABORT (R325). -/
def execStrCtlAbort (c : Nat) (stream : BitVec 2) (s : State) : Out := s.writeReg c (0xF4C + 0x10 * stream.toNat) 2
/-- DBG_STOP (R482, R483). -/
def execDbgStop (c : Nat) (v : Word) (s : State) : Out := s.writeReg c 0x2000 v
/-- DBG_STEP (R485). -/
def execDbgStep (c : Nat) (v : Word) (s : State) : Out := s.writeReg c 0x2000 v
/-- DBG_RESUME (R484). -/
def execDbgResume (c : Nat) (v : Word) (s : State) : Out := s.writeReg c 0x2000 v
/-- DBG_REPLY_WRITE (R481). -/
def execDbgReplyWrite (c : Nat) (v : Word) (s : State) : Out := s.writeReg c 0x2010 v
/-- TRACE_CTL_WRITE (R495). -/
def execTraceCtlWrite (c : Nat) (v : Word) (s : State) : Out := s.writeReg c 0x2014 v
/-- THREAD_WINDOW_WRITE (R488): a register of a thread's window. -/
def execThreadWindowWrite (c off : Nat) (v : Word) (s : State) : Out :=
  if 0x4000 ≤ off ∧ off < 0x8000 then s.writeReg c off v else guard (coreOk c) s
/-- BP_WP_WRITE (R497): a breakpoint or watchpoint register. -/
def execBpWpWrite (c off : Nat) (v : Word) (s : State) : Out :=
  if 0x2020 ≤ off ∧ off < 0x2040 then s.writeReg c off v else guard (coreOk c) s

/-- A 4-byte write of BAR0, by its offset (Table 14.1). -/
def bar0Write (off : Nat) (v : Word) (s : State) : Out :=
  if off % 4 ≠ 0 then .next s
  else if off = 0x14 then execCoolingWrite v s
  else if 0x18 ≤ off ∧ off ≤ 0x20 then execHostWinWrite off v s
  else if 0x100 ≤ off ∧ off < 0x120 then execRrCfgWrite (decide (0x110 ≤ off)) (off % 16) v s
  else if 0x1000 ≤ off ∧ off < 0x2000 then
    (if off % 64 < 0x10 then execSqCfgWrite ((off - 0x1000) / 64) (off % 64) v s
     else execCqCfgWrite ((off - 0x1000) / 64) (off % 64 - 0x10) v s)
  else if 0x2000 ≤ off ∧ off < 0x2200 then
    (if off % 8 = 0 then execSqTailDb ((off - 0x2000) / 8) v s else execCqHeadDb ((off - 0x2000) / 8) v s)
  else if off = 0x2200 then execEvtHeadDb v s
  else if off = 0x2204 then execDbgHeadDb v s
  else .next s

/-- The value of a read of the host, back at requester q. -/
def State.hostAnswer (s : State) (q : Nat) (v : Word) : State := { s with answers := sset (0, 0) s.answers q (0, v) }

/-- An access of the host to BAR0, answered to requester q (R333): one of another size than 4 bytes is ignored and reads as zero. -/
def bar0Access (size q off : Nat) (write : Option Word) (s : State) : Out :=
  if size ≠ 4 then .next (s.hostAnswer q 0)
  else match write with
    | some v => bar0Write off v s
    | none => let (v, s1) := s.bar0Read off; .next (s1.hostAnswer q v)

/-- A 4-byte access of the host to BAR2, answered to requester q (R326, R346). -/
def bar2Access (q off : Nat) (write : Option Word) (s : State) : Out :=
  .next (match write with
    | some v => s.bar2Write off v
    | none => s.hostAnswer q (s.bar2Read off))

/-- UNDERSTORY_ACCESS (R297, R326, R333): a configuration read or write reaches its target. -/
def execUnderstoryAccess (req : UReq) (s : State) : Out :=
  match req.target with
  | .bar0 size => bar0Access size req.requester req.offset req.write s
  | .bar2 => bar2Access req.requester req.offset req.write s
  | _ => guard (targetOk req.target) (s.answered req)

/-- CONFIG_REGISTER_WRITE (R297, R326, R333): the host writes a register that has no row of its own. -/
def execConfigRegisterWrite (tgt : CfgTarget) (off : Nat) (v : Word) (s : State) : Out :=
  match tgt with
  | .bar0 size => bar0Access size hostReq off (some v) s
  | .bar2 => bar2Access hostReq off (some v) s
  | _ => guard (targetOk tgt) (s.answered { requester := hostReq, target := tgt, offset := off, write := some v })

end Sys2Proof.Machine
end

