-- ==== Sys2Proof/Machine/LandRows.lean ====
section
/-! DEFINITION. What lands at a core and what leaves its send pool (R141, R142, R195, R238, R240, R259, R262, R267 to R270, R316,
R318). -/
namespace Sys2Proof.Machine

/-- A packet of core w toward a port, on the route that R287 leaves it; its virtual channel follows its order (Table 12.1). -/
def State.portOrder (s : State) (w : Nat) (p : Packet) : Packet :=
  match p.dst with
  | .core _ => p
  | n =>
    let (a, _, v) := joinOf n w
    let yx := s.orderOr w a (orderToPort v)
    { p with yx := yx, vc := BitVec.ofNat 2 (2 * (p.vc.toNat / 2) + b2n yx) }

/-- What core w has put behind its first n waiting packets, by the routes that R287 leaves. -/
def State.portOrders (s : State) (w n : Nat) : State :=
  s.modCore w fun c => { c with t := { c.t with outq := c.t.outq.take n ++ (c.t.outq.drop n).map (s.portOrder w) } }

/-- Whether the packet that has come first may land: a router-side access that waits lands no earlier than the next die cycle (R123). -/
def Core.mayLand (c : Core) : Bool := !decide (c.t.rwait = 1)

/-- The packet that has come first lands at core c, if it is of the row's kind (R123, R200, R259): packets land in the order in which they
reached the core, and none passes one that waits. -/
def State.landing (s : State) (c : Nat) (p : Packet → Bool) (f : Packet → Core → Core) : Out :=
  guard (coreOk c)
    (if !s.runs c || !(s.core c).mayLand then s
     else match (s.core c).t.inbox with
       | [] => s
       | x :: rest =>
         if !p x then s
         else (((s.onCore c fun y => f x { y with t := { y.t with inbox := rest, rwait := 0, rused := true } }).portOrders c
           (s.core c).t.outq.length).serveDma c rest.length))

/-- The word that names a packet's source: its core, or a port's first attachment core (R380). -/
def Packet.srcWord (p : Packet) : Nat := firstCore p.src

/-- REMOTE_WRITE_LAND (R141, R185, R186). -/
def execRemoteWriteLand (c : Nat) (s : State) : Out :=
  s.landing c (fun p => match p.body with
    | .rwrite .. => true
    | _ => false) fun p x => match p.body with
    | .rwrite id win off data zr => x.landRemoteWrite c p.srcWord id win off.toNat data zr
    | _ => x

/-- REMOTE_WRITE_ACK_LAND (R141). -/
def execRemoteWriteAckLand (c : Nat) (s : State) : Out :=
  s.landing c (fun p => match p.body with
    | .rwack .. => true
    | _ => false) fun p x => match p.body with
    | .rwack id st => x.landRwAck id st
    | _ => x

/-- CREDIT_MESSAGE_LAND (R142). -/
def execCreditMessageLand (c : Nat) (s : State) : Out :=
  s.landing c (fun p => match p.body with
    | .credit .. => true
    | _ => false) fun p x => match p.body with
    | .credit win n => x.landCredit p.srcWord win n
    | _ => x

/-- TOKEN_LAND (R238, R241). -/
def execTokenLand (c : Nat) (s : State) : Out :=
  s.landing c (fun p => match p.body with
    | .token .. => true
    | _ => false) fun p x => match p.body with
    | .token port q ctx data => x.landToken c p.srcWord port q.toNat ctx data
    | _ => x

/-- TOKEN_CREDIT_LAND (R240, R242). -/
def execTokenCreditLand (c : Nat) (s : State) : Out :=
  s.landing c (fun p => match p.body with
    | .tcredit .. => true
    | _ => false) fun p x => match p.body with
    | .tcredit port n clr => x.landTokenCredit port n clr
    | _ => x

/-- ACK_LAND (R261). -/
def execAckLand (c : Nat) (s : State) : Out :=
  s.landing c (fun p => match p.body with
    | .ack .. => true
    | _ => false) fun p x => match p.body with
    | .ack ep seq tag => x.landAck ep seq tag
    | _ => x

/-- NACK_LAND (R269). -/
def execNackLand (c : Nat) (s : State) : Out :=
  s.landing c (fun p => match p.body with
    | .nack .. => true
    | _ => false) fun p x => match p.body with
    | .nack ep _ tag => x.landNack ep tag
    | _ => x

/-- RESUME_LAND (R269). -/
def execResumeLand (c : Nat) (s : State) : Out :=
  s.landing c (fun p => match p.body with
    | .resume .. => true
    | _ => false) fun p x => match p.body with
    | .resume ep seq tag => x.landResume ep seq tag
    | _ => x

/-- REJECT_LAND (R270). -/
def execRejectLand (c : Nat) (s : State) : Out :=
  s.landing c (fun p => match p.body with
    | .reject .. => true
    | _ => false) fun p x => match p.body with
    | .reject ep seq tag why => x.landReject ep seq tag why
    | _ => x

/-- STREAM_REPLY_LAND (R289, R316, R320, R321). -/
def execStreamReplyLand (c : Nat) (s : State) : Out :=
  s.landing c (fun p => match p.body with
    | .rrep .. => true
    | .rpiece .. => true
    | _ => false) fun p x => match p.body with
    | .rrep id st ep fault data => x.landReply id st ep fault data
    | .rpiece id st ep o data last => x.landPiece id st ep o data last
    | _ => x

/-- STREAM_WRITE_ACK_LAND (R318, R321). -/
def execStreamWriteAckLand (c : Nat) (s : State) : Out :=
  s.landing c (fun p => match p.body with
    | .wack .. => true
    | _ => false) fun p x => match p.body with
    | .wack id st ep fault => x.landStreamAck id st ep fault
    | _ => x

/-- Whether a message or signal is for an endpoint whose TOKEN_EP bit is set. -/
def Core.isToken (c : Core) (p : Packet) : Bool :=
  match p.body with
  | .msg _ de _ _ _ => bitOf c.f.sp.tokenEp de.toNat
  | _ => false

/-- Whether a packet is a channel message or signal. -/
def Packet.isMsg (p : Packet) : Bool :=
  match p.body with
  | .msg .. => true
  | .sig .. => true
  | _ => false

/-- A message or signal landing (R194 to R196, R267, R274). -/
def Core.landChan (c : Core) (w : Nat) (p : Packet) : Core :=
  match p.body with
  | .msg se de seq tag data => c.landMsg w p.src p.srcWord se de.toNat seq tag data
  | .sig se de seq tag n t => c.landSig w p.src p.srcWord se de.toNat seq tag n t
  | _ => c

/-- TOKEN_MESSAGE_LAND (R194 to R196). -/
def execTokenMessageLand (c : Nat) (s : State) : Out :=
  s.landing c (fun p => (s.core c).isToken p) fun p x => x.landChan c p

/-- CHANNEL_MESSAGE_LAND (R267, R274). -/
def execChannelMessageLand (c : Nat) (s : State) : Out :=
  s.landing c (fun p => p.isMsg && !(s.core c).isToken p) fun p x => x.landChan c p

/-- RESUME_SEND (R268). -/
def execResumeSend (c : Nat) (s : State) : Out :=
  guard (coreOk c) (if s.runs c then (s.onCore c fun x => x.sendResume c).portOrders c (s.core c).t.outq.length else s)

/-! ## Departure -/

/-- The body and target of a pool message: a core, or a Glade flow (R379). -/
def Core.poolPacket (c : Core) (w : Nat) (m : PoolMsg) : Packet :=
  let o := c.chOut m.ep.toNat
  if o.ext then
    let flow := fldN o.tgt 3 8
    let b : Body := match m.sig with
      | some n => .esig flow m.ep o.tgtEp m.seq o.tag n
      | none => .emsg flow m.ep o.tgtEp m.seq o.tag m.data
    mkPacket (.core w) (.eth (fldN o.tgt 0 3)) false false m.bytes b
  else mkPacket (.core w) (.core o.tgt.toNat) (decide (o.order = 1)) false m.bytes (c.bodyOf m)

/-- The message whose turn it is leaves the pool (R196, R262, R269). -/
def Core.depart (c : Core) (w : Nat) : Core :=
  let c1 := pumpForwards c (33 * c.f.sp.fwd.length + 1)
  match c1.nextDepart with
  | none => c1
  | some m => (c1.markSent m).sendPkt (c1.poolPacket w m)

/-- SEND_POOL_DEPART (R262). -/
def execSendPoolDepart (c : Nat) (s : State) : Out :=
  guard (coreOk c) (if s.runs c then (s.onCore c fun x => x.depart c).portOrders c (s.core c).t.outq.length else s)

end Sys2Proof.Machine
end

