-- ==== Sys2Proof/Machine/MatrixRows.lean ====
section
/-! DEFINITION. The matrix, routing and delta rows (R148 to R165, R173 to R179, R188, R207, R210). -/
namespace Sys2Proof.Machine

/-- TCFG (R149). -/
def execTcfg (c : Nat) (t : Fin 4) (k target fmt : BitVec 4) (shape : BitVec 1) (layout : BitVec 3) (s : State) : Out :=
  s.issueInstr c t k (.tcfg target fmt shape layout)

/-- TFREE (R150). -/
def execTfree (c : Nat) (t : Fin 4) (k : BitVec 4) (tmask : BitVec 8) (amask : BitVec 4) (s : State) : Out :=
  s.issueInstr c t k (.tfree tmask amask)

/-- MSTAT (R164). -/
def execMstat (c : Nat) (t : Fin 4) (k : BitVec 4) (gd : BitVec 5) (sel : BitVec 4) (s : State) : Out :=
  s.issueInstr c t k (.mstat gd sel)

/-- ACLR (R163). -/
def execAclr (c : Nat) (t : Fin 4) (k amask : BitVec 4) (s : State) : Out :=
  s.issueInstr c t k (.aclr amask)

/-- AZERO (R163). -/
def execAzero (c : Nat) (t : Fin 4) (k amask : BitVec 4) (s : State) : Out :=
  s.issueInstr c t k (.azero amask)

/-- TLD (R151). -/
def execTld (c : Nat) (t : Fin 4) (k : BitVec 4) (tile : BitVec 3) (ag : BitVec 2) (p : Bool) (s : State) : Out :=
  s.issueInstr c t k (.tld tile ag p)

/-- TST (R151). -/
def execTst (c : Nat) (t : Fin 4) (k : BitVec 4) (tile : BitVec 3) (ag : BitVec 2) (p : Bool) (s : State) : Out :=
  s.issueInstr c t k (.tst tile ag p)

/-- MMA (R156). -/
def execMma (c : Nat) (t : Fin 4) (k : BitVec 4) (acc : BitVec 2) (ta tb : BitVec 3) (z : Bool) (tm : BitVec 3) (s : State) : Out :=
  s.issueInstr c t k (.mma acc ta tb z 0 tm)

/-- MMA_2_4 (R174). -/
def execMma24 (c : Nat) (t : Fin 4) (k : BitVec 4) (acc : BitVec 2) (ta tb : BitVec 3) (z : Bool) (tm : BitVec 3) (s : State) : Out :=
  s.issueInstr c t k (.mma acc ta tb z 1 tm)

/-- MMA_1_4 (R174). -/
def execMma14 (c : Nat) (t : Fin 4) (k : BitVec 4) (acc : BitVec 2) (ta tb : BitVec 3) (z : Bool) (tm : BitVec 3) (s : State) : Out :=
  s.issueInstr c t k (.mma acc ta tb z 2 tm)

/-- MMA_BITMAP (R177). -/
def execMmaBitmap (c : Nat) (t : Fin 4) (k : BitVec 4) (acc : BitVec 2) (ta tb : BitVec 3) (z : Bool) (tm : BitVec 3) (s : State) : Out :=
  s.issueInstr c t k (.mma acc ta tb z 3 tm)

/-- AGET (R162). -/
def execAget (c : Nat) (t : Fin 4) (k : BitVec 4) (vd : BitVec 5) (acc pair : BitVec 2) (s : State) : Out :=
  s.issueInstr c t k (.aget vd acc pair)

/-- APUT (R162). -/
def execAput (c : Nat) (t : Fin 4) (k : BitVec 4) (va : BitVec 5) (acc pair : BitVec 2) (s : State) : Out :=
  s.issueInstr c t k (.aput va acc pair)

/-- VROUTE (R188). -/
def execVroute (c : Nat) (t : Fin 4) (k : BitVec 4) (gn gb : BitVec 5) (cc : BitVec 4) (fin p : Bool) (s : State) : Out :=
  s.issueInstr c t k (.vroute gn gb cc fin p)

/-- VDELTA (R210). -/
def execVdelta (c : Nat) (t : Fin 4) (k layer : BitVec 4) (gn : BitVec 5) (s : State) : Out :=
  s.issueInstr c t k (.vdelta layer gn)

/-- DLFRAME (R207). -/
def execDlframe (c : Nat) (t : Fin 4) (k layer : BitVec 4) (gd ga : BitVec 5) (s : State) : Out :=
  s.issueInstr c t k (.dlframe layer gd ga)

end Sys2Proof.Machine
end

