-- ==== Sys2Proof/Machine/NoticeRows.lean ====
section
/-! DEFINITION. Notices of a core to its steward and the debug records, debug replies, and the start, finish and checking of MMAs
(R119, R129, R158, R168, R247, R298, R321, R322, R431 to R434, R438, R481, R496). -/
namespace Sys2Proof.Machine

/-! ## Notices -/

/-- Whether a notice is a debug record (R496). -/
def Notice.isDebug : Notice → Bool
  | .dbgStop .. => true
  | .traceFull => true
  | _ => false

/-- The first notice that p picks out, and the others. -/
def takeNotice (p : Notice → Bool) (l : List Notice) : Option (Notice × List Notice) :=
  (findIdxOpt p l 0).map fun (i, n) => (n, dropAt l i)

/-- The core with other notices waiting. -/
def Core.setNotices (c : Core) (l : List Notice) : Core := { c with t := { c.t with notices := l } }

/-- UNDERSTORY_NOTICE (R298, R418): core c's first notice reaches its steward; while that is stopped, the queue of its die's trunk, which
holds 1,024. -/
def execUnderstoryNotice (c : Nat) (s : State) : Out :=
  guard (coreOk c)
    (match takeNotice (fun n => !n.isDebug) (s.core c).t.notices with
     | none => s
     | some (n, rest) =>
       let d := dieOf c
       let s1 := s.modCore c fun x => x.setNotices rest
       if !s.dieUp d then s
       else if s.stewards d then s1.onNotice c n
       else if (s.die d).queue.length < 1024 then s1.modDie d fun x => { x with queue := x.queue ++ [.core c n] }
       else s.modCore c fun x => x.setNotices (mergeKinds x.t.notices))

/-- A debug record of a core (Table 21.6, R496). -/
def debugRecord (w : Nat) : Notice → Rec
  | .dbgStop reason t i pc addr prog =>
    { type := 0x40, len := 2,
      body := le 1 reason.toNat ++ le 1 t.toNat ++ le 1 i.toNat ++ le 1 0 ++ le 4 w ++ le 4 pc.toNat ++ le 4 addr.toNat
        ++ le 4 prog.toNat ++ le 4 0 }
  | _ => { type := 0x42, len := 1, body := le 4 0 ++ le 4 w }

/-- A debug record put into the lead's backlog of 256, or discarded and counted (R496). -/
def State.postDebug (s : State) (r : Rec) : State :=
  s.modLead fun l => if l.dbgLog.length < 256 then { l with dbgLog := l.dbgLog ++ [r] } else { l with dbgLost := l.dbgLost + 1 }

/-- DEBUG_RECORD_POST (R458, R496): core c's first debug record; one of a bound core outside its session's DBG range is not posted. -/
def execDebugRecordPost (c : Nat) (s : State) : Out :=
  guard (coreOk c)
    (if !s.stewards (dieOf c) then s
     else match takeNotice Notice.isDebug (s.core c).t.notices with
       | none => s
       | some (n, rest) =>
         let s1 := s.modCore c fun x => x.setNotices rest
         if (s.core c).t.session ≠ 0 ∧ !s.dbgGrant c then s1 else s1.postDebug (debugRecord c n))

/-! ## Debug replies -/

/-- Whether core c, if bound, may debug grove g (R458). -/
def State.mayDebug (s : State) (c g : Nat) : Bool :=
  match s.session (s.core c).t.session with
  | none => true
  | some x => decide (x.dbgBase ≤ g ∧ g < x.dbgBase + x.dbgLen)

/-- The reply to a debug request: status, value and the state after its access (R458, R480, R481). -/
def State.debugAccess (s : State) (c : Nat) (r : DbgReq) : Nat × Word × State :=
  if !s.mayDebug c (groveOf r.target) then (4, 0, s)
  else
    s.access { requester := 64 + c, target := .core r.target, offset := r.offset, write := if r.write then some r.value else none }

/-- A reply landing at its core (R481): its entry written, its counter raised, its pool entry freed. -/
def Core.landDebug (c : Core) (r : DbgReq) (status : Nat) (value : Word) : Core :=
  let d := c.f.dbg
  let c1 := c.routerWrite (64 * d.replyBase.toNat + 8 * (r.n % 8))
    (le 4 (if r.write then 0 else value.toNat) ++ le 1 status ++ le 3 0)
  let k := c1.k d.replyCntr.toNat
  let c2 := c1.setK d.replyCntr.toNat { k with val := k.val + 1 }
  let pool := match findIdxOpt (fun (m : PoolMsg) => m.dbg) c2.f.ch.pool 0 with
    | some (i, _) => dropAt c2.f.ch.pool i
    | none => c2.f.ch.pool
  { c2 with f := { c2.f with ch := { c2.f.ch with pool := pool }, dbg := { c2.f.dbg with reqs := c2.f.dbg.reqs.drop 1 } } }

/-- DEBUG_REPLY_LAND (R481): the oldest request of core c, its release taken effect if it is one (R263), is performed and its reply
lands; it wakes a gated grove. -/
def execDebugReplyLand (c : Nat) (s : State) : Out :=
  guard (coreOk c)
    (match (s.core c).f.dbg.reqs with
     | [] => s
     | r :: _ =>
       if ((s.core c).f.ch.pool.find? fun m => m.dbg).any fun m => m.held then s
       else
       let s0 := s.wake (groveOf c)
       if !s0.runs c then s0
       else
         let (status, value, s1) := s0.debugAccess c r
         s1.modCore c fun x => { x.landDebug r status value with t := { (x.landDebug r status value).t with rused := true } })

/-! ## The array -/

/-- Whether core w runs repeat work for the check of its own MMA (R433). -/
def State.repeating (s : State) (w : Nat) : Bool :=
  match (s.core (checkerOf w)).f.mx.check with
  | some b => decide (b.origin = w) && decide (b.phase = .repeating)
  | none => false

/-- The check buffer that serves core w's sampled MMA of count n, changed (R168). -/
def State.modCheck (s : State) (w n : Nat) (f : CheckBuf → CheckBuf) : State :=
  s.modCore (checkerOf w) fun c => c.modMx fun m =>
    { m with check := m.check.map fun b => if b.origin = w ∧ b.job.n = n then f b else b }

/-- MMA_START (R158, R161, R168): a sampled one hands its operands to its checker. -/
def execMmaStart (c : Nat) (s : State) : Out :=
  guard (coreOk c)
    (if !s.runs c || s.repeating c then s
     else
       let s1 := s.onCore c Core.startMma
       match (s.core c).f.mx.queue, (s1.core c).f.mx.queue with
       | j0 :: _, j :: _ => if !j0.started && j.started && j.sampled then
           s1.modCheck c j.n fun b => { b with job := j, phase := .ready } else s1
       | _, _ => s1)

/-- The checksums that a core forms of an MMA's accumulators (R432). -/
def Core.sumsOf (c : Core) (j : MmaJob) : DWord × DWord :=
  (checksum (c.acc j.acc.toNat).data, if j.sp = 2 then checksum (c.acc (j.acc.toNat + 1)).data else 0)

/-- MMA_FINISH (R41, R159, R432): flip the bits a hardware error changed; a sampled one forms its checksums. -/
def execMmaFinish (c : Nat) (flip : BitVec 4096) (s : State) : Out :=
  guard (coreOk c)
    (if !s.runs c then s
     else
       let s1 := s.onCore c fun x => x.finishMma flip
       match (s.core c).f.mx.queue with
       | j :: _ => if j.started && j.sampled then
           let y := s1.core c
           s1.modCheck c j.n fun b => { b with sums := some (y.sumsOf j), skip := j.accs.any fun i => (y.acc i).poison } else s1
       | [] => s1)

/-- The checksums of a result with the bits that a hardware error changed flipped (R432). -/
def MmaJob.sums (j : MmaJob) (flip : BitVec 4096) : DWord × DWord :=
  (checksum ((mmaResult j false).1 ^^^ lane 2048 flip 0),
   if j.sp = 2 then checksum ((mmaResult j true).1 ^^^ lane 2048 flip 1) else 0)

/-- The checker's buffer set (R168). -/
def Core.setCheck (c : Core) (b : Option CheckBuf) : Core := c.modMx fun m => { m with check := b }

/-- A counter of Table 18.5. -/
def Core.countCheck (c : Core) (i n : Nat) : Core := c.modMx fun m => { m with ccnt := smod 0 m.ccnt i (· + BitVec.ofNat 64 n) }

/-- CHECK_WORK_START (R158, R168, R170): checker c's array takes its check work. -/
def execCheckWorkStart (c : Nat) (s : State) : Out :=
  guard (coreOk c)
    (match (s.core c).f.mx.check with
     | none => s
     | some b =>
       if s.runs c && decide (b.phase = .ready) && (s.core c).arrayFree && !s.repeating c then
         s.modCore c fun x => x.setCheck (some { b with phase := .running })
       else s)

/-- CHECK_COMPARE (R432, R433): check work of checker c ends and its checksums are compared with the origin's; the buffer of an MMA
that its origin has discarded is freed (R160). -/
def execCheckCompare (c : Nat) (flip : BitVec 4096) (s : State) : Out :=
  guard (coreOk c)
    (match (s.core c).f.mx.check with
     | none => s
     | some b =>
       let free := fun (s : State) => s.modCore c fun x => x.setCheck none
       if !s.runs c || decide (b.phase = .repeating) then s
       else match b.sums with
         | none => if (s.core b.origin).f.mx.queue.any (fun j => j.sampled && decide (j.n = b.job.n)) then s else free s
         | some o =>
           if b.phase ≠ .running then s
           else
             let s1 := s.modCore c fun x => x.bump (cntPerf 11) b.job.cycles
             let cs := b.job.sums flip
             if b.skip || b.ue then free (s1.modCore b.origin fun x => x.countCheck 2 1)
             else if o = cs then free (s1.modCore b.origin fun x => x.countCheck 1 1)
             else s1.modCore c fun x => x.setCheck (some { b with phase := .repeating, csums := cs }))

/-- A check's outcome decided by its repeat (R433): 1 TRANSIENT_ORIGIN, 2 TRANSIENT_CHECKER, 3 permanent. -/
def checkOutcome (o o2 c2 : DWord × DWord) : Nat := if o2 ≠ c2 then 3 else if o ≠ o2 then 1 else 2

/-- CHECK_REPEAT_DONE (R433, R434, R436): the repeat of checker c's check ends after a number of die cycles; flipO and flipC are the
bits that hardware errors changed in the origin's and the checker's repeat. -/
def execCheckRepeatDone (c : Nat) (flipO flipC : BitVec 4096) (cycles : Nat) (s : State) : Out :=
  guard (coreOk c)
    (match (s.core c).f.mx.check with
     | none => s
     | some b =>
       match b.sums with
       | none => s
       | some o =>
         if !s.runs c || decide (b.phase ≠ .repeating) then s
         else
           let w := b.origin
           let out := checkOutcome o (b.job.sums flipO) (b.job.sums flipC)
           let second := decide (o.1 = b.csums.1)
           let o0 := if second then o.2 else o.1
           let c0 := if second then b.csums.2 else b.csums.1
           let s1 := (s.modCore c fun x => x.setCheck none).modCore w fun x =>
             ((x.countCheck 4 cycles).countCheck (if out = 3 then 5 else 3) 1).modMx fun m => { m with last := BitVec.ofNat 2 out }
           if out = 3 then s1.tell w (.permanent b.job.n o0 c0)
           else
             let sinfo : Word := BitVec.ofNat 32 (out + 16 * b.job.acc.toNat + 64 * b2n second)
             (s1.modCore w fun x => x.raiseAsync 10 sinfo (BitVec.ofNat 32 b.job.n)).tell w (.check sinfo b.job.n o0 c0))

end Sys2Proof.Machine
end

