-- ==== Sys2Proof/Machine/ScalarRows.lean ====
section
/-! DEFINITION. The scalar, load, store, generator, branch and control rows (R57 to R74, R80). -/
namespace Sys2Proof.Machine

/-- ADD (R60). -/
def execAdd (c : Nat) (t : Fin 4) (k : BitVec 4) (gd ga gb : BitVec 5) (sf : Bool) (s : State) : Out :=
  s.issueInstr c t k (.alu .add gd ga gb sf)

/-- ADC (R60). -/
def execAdc (c : Nat) (t : Fin 4) (k : BitVec 4) (gd ga gb : BitVec 5) (sf : Bool) (s : State) : Out :=
  s.issueInstr c t k (.alu .adc gd ga gb sf)

/-- SUB (R60). -/
def execSub (c : Nat) (t : Fin 4) (k : BitVec 4) (gd ga gb : BitVec 5) (sf : Bool) (s : State) : Out :=
  s.issueInstr c t k (.alu .sub gd ga gb sf)

/-- SBC (R60). -/
def execSbc (c : Nat) (t : Fin 4) (k : BitVec 4) (gd ga gb : BitVec 5) (sf : Bool) (s : State) : Out :=
  s.issueInstr c t k (.alu .sbc gd ga gb sf)

/-- AND (R60). -/
def execAnd (c : Nat) (t : Fin 4) (k : BitVec 4) (gd ga gb : BitVec 5) (sf : Bool) (s : State) : Out :=
  s.issueInstr c t k (.alu .and gd ga gb sf)

/-- OR (R60). -/
def execOr (c : Nat) (t : Fin 4) (k : BitVec 4) (gd ga gb : BitVec 5) (sf : Bool) (s : State) : Out :=
  s.issueInstr c t k (.alu .or gd ga gb sf)

/-- XOR (R60). -/
def execXor (c : Nat) (t : Fin 4) (k : BitVec 4) (gd ga gb : BitVec 5) (sf : Bool) (s : State) : Out :=
  s.issueInstr c t k (.alu .xor gd ga gb sf)

/-- ANDN (R60). -/
def execAndn (c : Nat) (t : Fin 4) (k : BitVec 4) (gd ga gb : BitVec 5) (sf : Bool) (s : State) : Out :=
  s.issueInstr c t k (.alu .andn gd ga gb sf)

/-- SHL (R68). -/
def execShl (c : Nat) (t : Fin 4) (k : BitVec 4) (gd ga gb : BitVec 5) (sf : Bool) (s : State) : Out :=
  s.issueInstr c t k (.alu .shl gd ga gb sf)

/-- SHR (R68). -/
def execShr (c : Nat) (t : Fin 4) (k : BitVec 4) (gd ga gb : BitVec 5) (sf : Bool) (s : State) : Out :=
  s.issueInstr c t k (.alu .shr gd ga gb sf)

/-- SAR (R68). -/
def execSar (c : Nat) (t : Fin 4) (k : BitVec 4) (gd ga gb : BitVec 5) (sf : Bool) (s : State) : Out :=
  s.issueInstr c t k (.alu .sar gd ga gb sf)

/-- ROR (R68). -/
def execRor (c : Nat) (t : Fin 4) (k : BitVec 4) (gd ga gb : BitVec 5) (sf : Bool) (s : State) : Out :=
  s.issueInstr c t k (.alu .ror gd ga gb sf)

/-- MUL (R68). -/
def execMul (c : Nat) (t : Fin 4) (k : BitVec 4) (gd ga gb : BitVec 5) (sf : Bool) (s : State) : Out :=
  s.issueInstr c t k (.alu .mul gd ga gb sf)

/-- MULHS (R68). -/
def execMulhs (c : Nat) (t : Fin 4) (k : BitVec 4) (gd ga gb : BitVec 5) (sf : Bool) (s : State) : Out :=
  s.issueInstr c t k (.alu .mulhs gd ga gb sf)

/-- MULHU (R68). -/
def execMulhu (c : Nat) (t : Fin 4) (k : BitVec 4) (gd ga gb : BitVec 5) (sf : Bool) (s : State) : Out :=
  s.issueInstr c t k (.alu .mulhu gd ga gb sf)

/-- MIN (R68). -/
def execMin (c : Nat) (t : Fin 4) (k : BitVec 4) (gd ga gb : BitVec 5) (sf : Bool) (s : State) : Out :=
  s.issueInstr c t k (.alu .min gd ga gb sf)

/-- MAX (R68). -/
def execMax (c : Nat) (t : Fin 4) (k : BitVec 4) (gd ga gb : BitVec 5) (sf : Bool) (s : State) : Out :=
  s.issueInstr c t k (.alu .max gd ga gb sf)

/-- MINU (R68). -/
def execMinu (c : Nat) (t : Fin 4) (k : BitVec 4) (gd ga gb : BitVec 5) (sf : Bool) (s : State) : Out :=
  s.issueInstr c t k (.alu .minu gd ga gb sf)

/-- MAXU (R68). -/
def execMaxu (c : Nat) (t : Fin 4) (k : BitVec 4) (gd ga gb : BitVec 5) (sf : Bool) (s : State) : Out :=
  s.issueInstr c t k (.alu .maxu gd ga gb sf)

/-- CLZ (R70). -/
def execClz (c : Nat) (t : Fin 4) (k : BitVec 4) (gd ga : BitVec 5) (s : State) : Out :=
  s.issueInstr c t k (.clz gd ga)

/-- BPERM (R70). -/
def execBperm (c : Nat) (t : Fin 4) (k : BitVec 4) (gd ga gb : BitVec 5) (s : State) : Out :=
  s.issueInstr c t k (.bperm gd ga gb)

/-- CMP (R60). -/
def execCmp (c : Nat) (t : Fin 4) (k : BitVec 4) (ga gb : BitVec 5) (s : State) : Out :=
  s.issueInstr c t k (.cmp ga gb)

/-- ADDI (R68). -/
def execAddi (c : Nat) (t : Fin 4) (k : BitVec 4) (gd ga : BitVec 5) (sf : Bool) (imm : BitVec 11) (s : State) : Out :=
  s.issueInstr c t k (.aluImm .add gd ga sf imm)

/-- ANDI (R68). -/
def execAndi (c : Nat) (t : Fin 4) (k : BitVec 4) (gd ga : BitVec 5) (sf : Bool) (imm : BitVec 11) (s : State) : Out :=
  s.issueInstr c t k (.aluImm .and gd ga sf imm)

/-- ORI (R68). -/
def execOri (c : Nat) (t : Fin 4) (k : BitVec 4) (gd ga : BitVec 5) (sf : Bool) (imm : BitVec 11) (s : State) : Out :=
  s.issueInstr c t k (.aluImm .or gd ga sf imm)

/-- XORI (R68). -/
def execXori (c : Nat) (t : Fin 4) (k : BitVec 4) (gd ga : BitVec 5) (sf : Bool) (imm : BitVec 11) (s : State) : Out :=
  s.issueInstr c t k (.aluImm .xor gd ga sf imm)

/-- CMPI (R60). -/
def execCmpi (c : Nat) (t : Fin 4) (k : BitVec 4) (ga : BitVec 5) (imm : BitVec 11) (s : State) : Out :=
  s.issueInstr c t k (.cmpi ga imm)

/-- MOVI (R80). -/
def execMovi (c : Nat) (t : Fin 4) (k : BitVec 4) (gd : BitVec 5) (imm : BitVec 16) (s : State) : Out :=
  s.issueInstr c t k (.movi gd imm)

/-- MOVHI (R80). -/
def execMovhi (c : Nat) (t : Fin 4) (k : BitVec 4) (gd : BitVec 5) (imm : BitVec 16) (s : State) : Out :=
  s.issueInstr c t k (.movhi gd imm)

/-- SHLI (R68). -/
def execShli (c : Nat) (t : Fin 4) (k : BitVec 4) (gd ga amount : BitVec 5) (sf : Bool) (s : State) : Out :=
  s.issueInstr c t k (.shiftImm 0 gd ga amount sf)

/-- SHRI (R68). -/
def execShri (c : Nat) (t : Fin 4) (k : BitVec 4) (gd ga amount : BitVec 5) (sf : Bool) (s : State) : Out :=
  s.issueInstr c t k (.shiftImm 1 gd ga amount sf)

/-- SARI (R68). -/
def execSari (c : Nat) (t : Fin 4) (k : BitVec 4) (gd ga amount : BitVec 5) (sf : Bool) (s : State) : Out :=
  s.issueInstr c t k (.shiftImm 2 gd ga amount sf)

/-- RORI (R68). -/
def execRori (c : Nat) (t : Fin 4) (k : BitVec 4) (gd ga amount : BitVec 5) (sf : Bool) (s : State) : Out :=
  s.issueInstr c t k (.shiftImm 3 gd ga amount sf)

/-- BFI (R69). -/
def execBfi (c : Nat) (t : Fin 4) (k : BitVec 4) (gd ga pos : BitVec 5) (width : BitVec 6) (s : State) : Out :=
  s.issueInstr c t k (.bfi gd ga pos width)

/-- BFX (R69). -/
def execBfx (c : Nat) (t : Fin 4) (k : BitVec 4) (gd ga pos : BitVec 5) (width : BitVec 6) (sgn : Bool) (s : State) : Out :=
  s.issueInstr c t k (.bfx gd ga pos width sgn)

/-- MACD (R71). -/
def execMacd (c : Nat) (t : Fin 4) (k : BitVec 4) (gd : BitVec 5) (z p : Bool) (size : BitVec 2) (s : State) : Out :=
  s.issueInstr c t k (.macd gd z p size)

/-- VMACD (R78). -/
def execVmacd (c : Nat) (t : Fin 4) (k : BitVec 4) (vd : BitVec 5) (z p : Bool) (ty : BitVec 2) (s : State) : Out :=
  s.issueInstr c t k (.vmacd vd z p ty)

/-- LDR (R72). -/
def execLdr (c : Nat) (t : Fin 4) (k : BitVec 4) (rd : BitVec 5) (cr : BitVec 4) (ga : BitVec 5) (size : BitVec 3) (imm : BitVec 5) (s : State) : Out :=
  s.issueInstr c t k (.ldr rd cr ga size imm)

/-- STR (R72). -/
def execStr (c : Nat) (t : Fin 4) (k : BitVec 4) (rs : BitVec 5) (cr : BitVec 4) (ga : BitVec 5) (size : BitVec 3) (imm : BitVec 5) (s : State) : Out :=
  s.issueInstr c t k (.str rs cr ga size imm)

/-- LDA (R72). -/
def execLda (c : Nat) (t : Fin 4) (k : BitVec 4) (rd : BitVec 5) (ag : BitVec 2) (p : Bool) (size : BitVec 3) (s : State) : Out :=
  s.issueInstr c t k (.lda rd ag p size)

/-- STA (R72). -/
def execSta (c : Nat) (t : Fin 4) (k : BitVec 4) (rs : BitVec 5) (ag : BitVec 2) (p : Bool) (size : BitVec 3) (s : State) : Out :=
  s.issueInstr c t k (.sta rs ag p size)

/-- AGSET (R65). -/
def execAgset (c : Nat) (t : Fin 4) (k : BitVec 4) (ag : BitVec 2) (ga : BitVec 5) (field : BitVec 3) (s : State) : Out :=
  s.issueInstr c t k (.agset ag ga field)

/-- AGGET (R65). -/
def execAgget (c : Nat) (t : Fin 4) (k : BitVec 4) (ag : BitVec 2) (gd : BitVec 5) (field : BitVec 3) (s : State) : Out :=
  s.issueInstr c t k (.agget ag gd field)

/-- AGADD (R66). -/
def execAgadd (c : Nat) (t : Fin 4) (k : BitVec 4) (ag : BitVec 2) (imm : BitVec 17) (s : State) : Out :=
  s.issueInstr c t k (.agadd ag imm)

/-- AGBIND (R67). -/
def execAgbind (c : Nat) (t : Fin 4) (k : BitVec 4) (ag : BitVec 2) (cr : BitVec 4) (s : State) : Out :=
  s.issueInstr c t k (.agbind ag cr)

/-- B (R73). -/
def execB (c : Nat) (t : Fin 4) (k : BitVec 4) (off : BitVec 22) (s : State) : Out :=
  s.issueInstr c t k (.b off)

/-- BL (R73). -/
def execBl (c : Nat) (t : Fin 4) (k : BitVec 4) (off : BitVec 22) (s : State) : Out :=
  s.issueInstr c t k (.bl off)

/-- BR (R73). -/
def execBr (c : Nat) (t : Fin 4) (k : BitVec 4) (ga : BitVec 5) (s : State) : Out :=
  s.issueInstr c t k (.br ga false)

/-- BLR (R73). -/
def execBlr (c : Nat) (t : Fin 4) (k : BitVec 4) (ga : BitVec 5) (s : State) : Out :=
  s.issueInstr c t k (.br ga true)

/-- RDSR (R74). -/
def execRdsr (c : Nat) (t : Fin 4) (k : BitVec 4) (gd : BitVec 5) (sr : BitVec 4) (s : State) : Out :=
  s.issueInstr c t k (.rdsr gd sr)

/-- IFLUSH (R62). -/
def execIflush (c : Nat) (t : Fin 4) (k : BitVec 4) (s : State) : Out :=
  s.issueInstr c t k (.iflush)

end Sys2Proof.Machine
end

