-- ==== Sys2Proof/Machine/VectorRows.lean ====
section
/-! DEFINITION. The vector rows (R47 to R49, R75 to R79). -/
namespace Sys2Proof.Machine

/-- VADD (R75). -/
def execVadd (c : Nat) (t : Fin 4) (k : BitVec 4) (vd va vb : BitVec 5) (ty : BitVec 3) (s : State) : Out :=
  s.issueInstr c t k (.vop .add vd va vb ty)

/-- VSUB (R75). -/
def execVsub (c : Nat) (t : Fin 4) (k : BitVec 4) (vd va vb : BitVec 5) (ty : BitVec 3) (s : State) : Out :=
  s.issueInstr c t k (.vop .sub vd va vb ty)

/-- VMUL (R75). -/
def execVmul (c : Nat) (t : Fin 4) (k : BitVec 4) (vd va vb : BitVec 5) (ty : BitVec 3) (s : State) : Out :=
  s.issueInstr c t k (.vop .mul vd va vb ty)

/-- VFMA (R75). -/
def execVfma (c : Nat) (t : Fin 4) (k : BitVec 4) (vd va vb : BitVec 5) (ty : BitVec 3) (s : State) : Out :=
  s.issueInstr c t k (.vop .fma vd va vb ty)

/-- VMIN (R47). -/
def execVmin (c : Nat) (t : Fin 4) (k : BitVec 4) (vd va vb : BitVec 5) (ty : BitVec 3) (s : State) : Out :=
  s.issueInstr c t k (.vop .min vd va vb ty)

/-- VMAX (R47). -/
def execVmax (c : Nat) (t : Fin 4) (k : BitVec 4) (vd va vb : BitVec 5) (ty : BitVec 3) (s : State) : Out :=
  s.issueInstr c t k (.vop .max vd va vb ty)

/-- VAND (R75). -/
def execVand (c : Nat) (t : Fin 4) (k : BitVec 4) (vd va vb : BitVec 5) (ty : BitVec 3) (s : State) : Out :=
  s.issueInstr c t k (.vop .and vd va vb ty)

/-- VOR (R75). -/
def execVor (c : Nat) (t : Fin 4) (k : BitVec 4) (vd va vb : BitVec 5) (ty : BitVec 3) (s : State) : Out :=
  s.issueInstr c t k (.vop .or vd va vb ty)

/-- VXOR (R75). -/
def execVxor (c : Nat) (t : Fin 4) (k : BitVec 4) (vd va vb : BitVec 5) (ty : BitVec 3) (s : State) : Out :=
  s.issueInstr c t k (.vop .xor vd va vb ty)

/-- VSHL (R75). -/
def execVshl (c : Nat) (t : Fin 4) (k : BitVec 4) (vd va vb : BitVec 5) (ty : BitVec 3) (s : State) : Out :=
  s.issueInstr c t k (.vop .shl vd va vb ty)

/-- VSHR (R75). -/
def execVshr (c : Nat) (t : Fin 4) (k : BitVec 4) (vd va vb : BitVec 5) (ty : BitVec 3) (s : State) : Out :=
  s.issueInstr c t k (.vop .shr vd va vb ty)

/-- VSEL (R76). -/
def execVsel (c : Nat) (t : Fin 4) (k : BitVec 4) (vd va vb : BitVec 5) (ty : BitVec 3) (s : State) : Out :=
  s.issueInstr c t k (.vop .sel vd va vb ty)

/-- VABS (R75). -/
def execVabs (c : Nat) (t : Fin 4) (k : BitVec 4) (vd va : BitVec 5) (ty : BitVec 3) (s : State) : Out :=
  s.issueInstr c t k (.vop .abs vd va 0 ty)

/-- VADDS (R75). -/
def execVadds (c : Nat) (t : Fin 4) (k : BitVec 4) (vd va vb : BitVec 5) (ty : BitVec 3) (s : State) : Out :=
  s.issueInstr c t k (.vop .adds vd va vb ty)

/-- VSUBS (R75). -/
def execVsubs (c : Nat) (t : Fin 4) (k : BitVec 4) (vd va vb : BitVec 5) (ty : BitVec 3) (s : State) : Out :=
  s.issueInstr c t k (.vop .subs vd va vb ty)

/-- VCMP (R76). -/
def execVcmp (c : Nat) (t : Fin 4) (k : BitVec 4) (vd va vb : BitVec 5) (cc : BitVec 3) (sf : Bool) (ty : BitVec 3) (s : State) : Out :=
  s.issueInstr c t k (.vcmp vd va vb cc sf ty)

/-- VBCAST (R80). -/
def execVbcast (c : Nat) (t : Fin 4) (k : BitVec 4) (vd ga : BitVec 5) (ln : BitVec 6) (ty : BitVec 3) (s : State) : Out :=
  s.issueInstr c t k (.vbcast vd ga ln ty)

/-- VEXT (R80). -/
def execVext (c : Nat) (t : Fin 4) (k : BitVec 4) (gd va : BitVec 5) (ln : BitVec 6) (ty : BitVec 3) (s : State) : Out :=
  s.issueInstr c t k (.vext gd va ln ty)

/-- VINS (R80). -/
def execVins (c : Nat) (t : Fin 4) (k : BitVec 4) (vd ga : BitVec 5) (ln : BitVec 6) (ty : BitVec 3) (s : State) : Out :=
  s.issueInstr c t k (.vins vd ga ln ty)

/-- VREDSUM (R77). -/
def execVredsum (c : Nat) (t : Fin 4) (k : BitVec 4) (vd va : BitVec 5) (ty : BitVec 3) (s : State) : Out :=
  s.issueInstr c t k (.vred .sum vd va ty)

/-- VREDMAX (R77). -/
def execVredmax (c : Nat) (t : Fin 4) (k : BitVec 4) (vd va : BitVec 5) (ty : BitVec 3) (s : State) : Out :=
  s.issueInstr c t k (.vred .max vd va ty)

/-- VREDMIN (R77). -/
def execVredmin (c : Nat) (t : Fin 4) (k : BitVec 4) (vd va : BitVec 5) (ty : BitVec 3) (s : State) : Out :=
  s.issueInstr c t k (.vred .min vd va ty)

/-- VCVT (R48). -/
def execVcvt (c : Nat) (t : Fin 4) (k : BitVec 4) (vd va : BitVec 5) (src dst : BitVec 4) (part : BitVec 2) (rm : BitVec 3) (ovf : Bool) (s : State) : Out :=
  s.issueInstr c t k (.vcvt vd va src dst part rm ovf)

end Sys2Proof.Machine
end

