-- ==== Sys2Proof/Machine/Dispatch.lean ====
section
/-! DEFINITION. One arm per constructor of Instr: the meaning of each command. -/
namespace Sys2Proof.Machine

def exec (i : Instr) (s : State) : Host.Outcome State Fault Refusal :=
  match i with
  | .powerApplied => Sys2Proof.Machine.execPowerApplied s
  | .startAbandoned => Sys2Proof.Machine.execStartAbandoned s
  | .inputPowerRemoved => Sys2Proof.Machine.execInputPowerRemoved s
  | .rearm => Sys2Proof.Machine.execRearm s
  | .trip cause die => Sys2Proof.Machine.execTrip cause die s
  | .converterFault die => Sys2Proof.Machine.execConverterFault die s
  | .inputVoltageOutOfRange mv => Sys2Proof.Machine.execInputVoltageOutOfRange mv s
  | .currentLimit ma => Sys2Proof.Machine.execCurrentLimit ma s
  | .trunkPowerUp at_ => Sys2Proof.Machine.execTrunkPowerUp at_ s
  | .trunkBistDone die pass => Sys2Proof.Machine.execTrunkBistDone die pass s
  | .leadReportTimeout => Sys2Proof.Machine.execLeadReportTimeout s
  | .stackTrainingDone port pass => Sys2Proof.Machine.execStackTrainingDone port pass s
  | .stackZeroingDone port => Sys2Proof.Machine.execStackZeroingDone port s
  | .cxlLinkUp => Sys2Proof.Machine.execCxlLinkUp s
  | .cxlLinkDown => Sys2Proof.Machine.execCxlLinkDown s
  | .perstAssert => Sys2Proof.Machine.execPerstAssert s
  | .perstDeassert => Sys2Proof.Machine.execPerstDeassert s
  | .grovePowerStep => Sys2Proof.Machine.execGrovePowerStep s
  | .thymeEntry => Sys2Proof.Machine.execThymeEntry s
  | .powerupSelfTest => Sys2Proof.Machine.execPowerupSelfTest s
  | .powerupSelfTestDone ended => Sys2Proof.Machine.execPowerupSelfTestDone ended s
  | .dieCycleIssue c => Sys2Proof.Machine.execDieCycleIssue c s
  | .spadWriteBack c => Sys2Proof.Machine.execSpadWriteBack c s
  | .add c t k gd ga gb sf => Sys2Proof.Machine.execAdd c t k gd ga gb sf s
  | .adc c t k gd ga gb sf => Sys2Proof.Machine.execAdc c t k gd ga gb sf s
  | .sub c t k gd ga gb sf => Sys2Proof.Machine.execSub c t k gd ga gb sf s
  | .sbc c t k gd ga gb sf => Sys2Proof.Machine.execSbc c t k gd ga gb sf s
  | .and c t k gd ga gb sf => Sys2Proof.Machine.execAnd c t k gd ga gb sf s
  | .or c t k gd ga gb sf => Sys2Proof.Machine.execOr c t k gd ga gb sf s
  | .xor c t k gd ga gb sf => Sys2Proof.Machine.execXor c t k gd ga gb sf s
  | .andn c t k gd ga gb sf => Sys2Proof.Machine.execAndn c t k gd ga gb sf s
  | .shl c t k gd ga gb sf => Sys2Proof.Machine.execShl c t k gd ga gb sf s
  | .shr c t k gd ga gb sf => Sys2Proof.Machine.execShr c t k gd ga gb sf s
  | .sar c t k gd ga gb sf => Sys2Proof.Machine.execSar c t k gd ga gb sf s
  | .ror c t k gd ga gb sf => Sys2Proof.Machine.execRor c t k gd ga gb sf s
  | .mul c t k gd ga gb sf => Sys2Proof.Machine.execMul c t k gd ga gb sf s
  | .mulhs c t k gd ga gb sf => Sys2Proof.Machine.execMulhs c t k gd ga gb sf s
  | .mulhu c t k gd ga gb sf => Sys2Proof.Machine.execMulhu c t k gd ga gb sf s
  | .min c t k gd ga gb sf => Sys2Proof.Machine.execMin c t k gd ga gb sf s
  | .max c t k gd ga gb sf => Sys2Proof.Machine.execMax c t k gd ga gb sf s
  | .minu c t k gd ga gb sf => Sys2Proof.Machine.execMinu c t k gd ga gb sf s
  | .maxu c t k gd ga gb sf => Sys2Proof.Machine.execMaxu c t k gd ga gb sf s
  | .clz c t k gd ga => Sys2Proof.Machine.execClz c t k gd ga s
  | .bperm c t k gd ga gb => Sys2Proof.Machine.execBperm c t k gd ga gb s
  | .cmp c t k ga gb => Sys2Proof.Machine.execCmp c t k ga gb s
  | .addi c t k gd ga sf imm => Sys2Proof.Machine.execAddi c t k gd ga sf imm s
  | .andi c t k gd ga sf imm => Sys2Proof.Machine.execAndi c t k gd ga sf imm s
  | .ori c t k gd ga sf imm => Sys2Proof.Machine.execOri c t k gd ga sf imm s
  | .xori c t k gd ga sf imm => Sys2Proof.Machine.execXori c t k gd ga sf imm s
  | .cmpi c t k ga imm => Sys2Proof.Machine.execCmpi c t k ga imm s
  | .movi c t k gd imm => Sys2Proof.Machine.execMovi c t k gd imm s
  | .movhi c t k gd imm => Sys2Proof.Machine.execMovhi c t k gd imm s
  | .shli c t k gd ga amount sf => Sys2Proof.Machine.execShli c t k gd ga amount sf s
  | .shri c t k gd ga amount sf => Sys2Proof.Machine.execShri c t k gd ga amount sf s
  | .sari c t k gd ga amount sf => Sys2Proof.Machine.execSari c t k gd ga amount sf s
  | .rori c t k gd ga amount sf => Sys2Proof.Machine.execRori c t k gd ga amount sf s
  | .bfi c t k gd ga pos width => Sys2Proof.Machine.execBfi c t k gd ga pos width s
  | .bfx c t k gd ga pos width sgn => Sys2Proof.Machine.execBfx c t k gd ga pos width sgn s
  | .macd c t k gd z p size => Sys2Proof.Machine.execMacd c t k gd z p size s
  | .vmacd c t k vd z p ty => Sys2Proof.Machine.execVmacd c t k vd z p ty s
  | .ldr c t k rd cr ga size imm => Sys2Proof.Machine.execLdr c t k rd cr ga size imm s
  | .str c t k rs cr ga size imm => Sys2Proof.Machine.execStr c t k rs cr ga size imm s
  | .lda c t k rd ag p size => Sys2Proof.Machine.execLda c t k rd ag p size s
  | .sta c t k rs ag p size => Sys2Proof.Machine.execSta c t k rs ag p size s
  | .agset c t k ag ga field => Sys2Proof.Machine.execAgset c t k ag ga field s
  | .agget c t k ag gd field => Sys2Proof.Machine.execAgget c t k ag gd field s
  | .agadd c t k ag imm => Sys2Proof.Machine.execAgadd c t k ag imm s
  | .agbind c t k ag cr => Sys2Proof.Machine.execAgbind c t k ag cr s
  | .b c t k off => Sys2Proof.Machine.execB c t k off s
  | .bl c t k off => Sys2Proof.Machine.execBl c t k off s
  | .br c t k ga => Sys2Proof.Machine.execBr c t k ga s
  | .blr c t k ga => Sys2Proof.Machine.execBlr c t k ga s
  | .rdsr c t k gd sr => Sys2Proof.Machine.execRdsr c t k gd sr s
  | .iflush c t k => Sys2Proof.Machine.execIflush c t k s
  | .vadd c t k vd va vb ty => Sys2Proof.Machine.execVadd c t k vd va vb ty s
  | .vsub c t k vd va vb ty => Sys2Proof.Machine.execVsub c t k vd va vb ty s
  | .vmul c t k vd va vb ty => Sys2Proof.Machine.execVmul c t k vd va vb ty s
  | .vfma c t k vd va vb ty => Sys2Proof.Machine.execVfma c t k vd va vb ty s
  | .vmin c t k vd va vb ty => Sys2Proof.Machine.execVmin c t k vd va vb ty s
  | .vmax c t k vd va vb ty => Sys2Proof.Machine.execVmax c t k vd va vb ty s
  | .vand c t k vd va vb ty => Sys2Proof.Machine.execVand c t k vd va vb ty s
  | .vor c t k vd va vb ty => Sys2Proof.Machine.execVor c t k vd va vb ty s
  | .vxor c t k vd va vb ty => Sys2Proof.Machine.execVxor c t k vd va vb ty s
  | .vshl c t k vd va vb ty => Sys2Proof.Machine.execVshl c t k vd va vb ty s
  | .vshr c t k vd va vb ty => Sys2Proof.Machine.execVshr c t k vd va vb ty s
  | .vsel c t k vd va vb ty => Sys2Proof.Machine.execVsel c t k vd va vb ty s
  | .vabs c t k vd va ty => Sys2Proof.Machine.execVabs c t k vd va ty s
  | .vadds c t k vd va vb ty => Sys2Proof.Machine.execVadds c t k vd va vb ty s
  | .vsubs c t k vd va vb ty => Sys2Proof.Machine.execVsubs c t k vd va vb ty s
  | .vcmp c t k vd va vb cc sf ty => Sys2Proof.Machine.execVcmp c t k vd va vb cc sf ty s
  | .vbcast c t k vd ga ln ty => Sys2Proof.Machine.execVbcast c t k vd ga ln ty s
  | .vext c t k gd va ln ty => Sys2Proof.Machine.execVext c t k gd va ln ty s
  | .vins c t k vd ga ln ty => Sys2Proof.Machine.execVins c t k vd ga ln ty s
  | .vredsum c t k vd va ty => Sys2Proof.Machine.execVredsum c t k vd va ty s
  | .vredmax c t k vd va ty => Sys2Proof.Machine.execVredmax c t k vd va ty s
  | .vredmin c t k vd va ty => Sys2Proof.Machine.execVredmin c t k vd va ty s
  | .vcvt c t k vd va src dst part rm ovf => Sys2Proof.Machine.execVcvt c t k vd va src dst part rm ovf s
  | .slotTableWrite c v => Sys2Proof.Machine.execSlotTableWrite c v s
  | .slotTableTakesEffect c => Sys2Proof.Machine.execSlotTableTakesEffect c s
  | .threadCtlWrite c v => Sys2Proof.Machine.execThreadCtlWrite c v s
  | .capSlotTagWrite c slot v => Sys2Proof.Machine.execCapSlotTagWrite c slot v s
  | .l2Release c v => Sys2Proof.Machine.execL2Release c v s
  | .cld c t k cd cb ga => Sys2Proof.Machine.execCld c t k cd cb ga s
  | .cst c t k cs cb ga => Sys2Proof.Machine.execCst c t k cs cb ga s
  | .cmov c t k cd cs => Sys2Proof.Machine.execCmov c t k cd cs s
  | .cclr c t k cd cs => Sys2Proof.Machine.execCclr c t k cd cs s
  | .cnarrow c t k cd cs ga gb => Sys2Proof.Machine.execCnarrow c t k cd cs ga gb s
  | .cinfo c t k gd cs field => Sys2Proof.Machine.execCinfo c t k gd cs field s
  | .cstamp c t k cd cs ca ga => Sys2Proof.Machine.execCstamp c t k cd cs ca ga s
  | .credeem c t k cd cs ca => Sys2Proof.Machine.execCredeem c t k cd cs ca s
  | .ctest c t k cs ga => Sys2Proof.Machine.execCtest c t k cs ga s
  | .crevoke c t k ca ga => Sys2Proof.Machine.execCrevoke c t k ca ga s
  | .trap c t k n cs => Sys2Proof.Machine.execTrap c t k n cs s
  | .asyncCauseEntry c => Sys2Proof.Machine.execAsyncCauseEntry c s
  | .waitingFaultEntry c => Sys2Proof.Machine.execWaitingFaultEntry c s
  | .rfe c t k csys => Sys2Proof.Machine.execRfe c t k csys s
  | .ssrd c t k field gd set => Sys2Proof.Machine.execSsrd c t k field gd set s
  | .sswr c t k field ga set => Sys2Proof.Machine.execSswr c t k field ga set s
  | .scrd c t k cfield cd set => Sys2Proof.Machine.execScrd c t k cfield cd set s
  | .scwr c t k cfield cs set => Sys2Proof.Machine.execScwr c t k cfield cs set s
  | .remoteWrite c t k cs ga len rel => Sys2Proof.Machine.execRemoteWrite c t k cs ga len rel s
  | .remoteWriteLand c => Sys2Proof.Machine.execRemoteWriteLand c s
  | .remoteWriteAckLand c => Sys2Proof.Machine.execRemoteWriteAckLand c s
  | .creditMessageLand c => Sys2Proof.Machine.execCreditMessageLand c s
  | .releaseTakesEffect c t => Sys2Proof.Machine.execReleaseTakesEffect c t s
  | .ocredCtlWrite c e v => Sys2Proof.Machine.execOcredCtlWrite c e v s
  | .iwinCtlWrite c w v => Sys2Proof.Machine.execIwinCtlWrite c w v s
  | .tcfg c t k target fmt shape layout => Sys2Proof.Machine.execTcfg c t k target fmt shape layout s
  | .tfree c t k tmask amask => Sys2Proof.Machine.execTfree c t k tmask amask s
  | .mstat c t k gd sel => Sys2Proof.Machine.execMstat c t k gd sel s
  | .aclr c t k amask => Sys2Proof.Machine.execAclr c t k amask s
  | .azero c t k amask => Sys2Proof.Machine.execAzero c t k amask s
  | .tld c t k tile ag p => Sys2Proof.Machine.execTld c t k tile ag p s
  | .tst c t k tile ag p => Sys2Proof.Machine.execTst c t k tile ag p s
  | .mma c t k acc ta tb z tm => Sys2Proof.Machine.execMma c t k acc ta tb z tm s
  | .mma24 c t k acc ta tb z tm => Sys2Proof.Machine.execMma24 c t k acc ta tb z tm s
  | .mma14 c t k acc ta tb z tm => Sys2Proof.Machine.execMma14 c t k acc ta tb z tm s
  | .mmaBitmap c t k acc ta tb z tm => Sys2Proof.Machine.execMmaBitmap c t k acc ta tb z tm s
  | .mmaStart c => Sys2Proof.Machine.execMmaStart c s
  | .mmaFinish c flip => Sys2Proof.Machine.execMmaFinish c flip s
  | .aget c t k vd acc pair => Sys2Proof.Machine.execAget c t k vd acc pair s
  | .aput c t k va acc pair => Sys2Proof.Machine.execAput c t k va acc pair s
  | .checkWorkStart c => Sys2Proof.Machine.execCheckWorkStart c s
  | .checkCompare c flip => Sys2Proof.Machine.execCheckCompare c flip s
  | .checkRepeatDone c flipO flipC cycles => Sys2Proof.Machine.execCheckRepeatDone c flipO flipC cycles s
  | .vroute c t k gn gb cc fin p => Sys2Proof.Machine.execVroute c t k gn gb cc fin p s
  | .tokenMessageLand c => Sys2Proof.Machine.execTokenMessageLand c s
  | .groveIdleGate grove => Sys2Proof.Machine.execGroveIdleGate grove s
  | .groveWake grove => Sys2Proof.Machine.execGroveWake grove s
  | .gatedDeliveryLand c => Sys2Proof.Machine.execGatedDeliveryLand c s
  | .spCntClr c v => Sys2Proof.Machine.execSpCntClr c v s
  | .rtCfgWrite c v => Sys2Proof.Machine.execRtCfgWrite c v s
  | .vdelta c t k layer gn => Sys2Proof.Machine.execVdelta c t k layer gn s
  | .dlframe c t k layer gd ga => Sys2Proof.Machine.execDlframe c t k layer gd ga s
  | .dlLayerWrite c l v => Sys2Proof.Machine.execDlLayerWrite c l v s
  | .dlCntClr c v => Sys2Proof.Machine.execDlCntClr c v s
  | .ctxsw c t k ctx disp => Sys2Proof.Machine.execCtxsw c t k ctx disp s
  | .contextSwitch c => Sys2Proof.Machine.execContextSwitch c s
  | .ctxswReqWrite c v => Sys2Proof.Machine.execCtxswReqWrite c v s
  | .tsend c t k port va len rel => Sys2Proof.Machine.execTsend c t k port va len rel s
  | .tend c t k => Sys2Proof.Machine.execTend c t k s
  | .tdone c t k cs ga => Sys2Proof.Machine.execTdone c t k cs ga s
  | .stctlStart c t k cs => Sys2Proof.Machine.execStctlStart c t k cs s
  | .stctlStop c t k cs => Sys2Proof.Machine.execStctlStop c t k cs s
  | .stctlAbort c t k cs => Sys2Proof.Machine.execStctlAbort c t k cs s
  | .tstat c t k gd sel => Sys2Proof.Machine.execTstat c t k gd sel s
  | .firing c => Sys2Proof.Machine.execFiring c s
  | .tokenLand c => Sys2Proof.Machine.execTokenLand c s
  | .tokenCreditLand c => Sys2Proof.Machine.execTokenCreditLand c s
  | .extensionRefill c => Sys2Proof.Machine.execExtensionRefill c s
  | .stallTrip c => Sys2Proof.Machine.execStallTrip c s
  | .standStallPost stand => Sys2Proof.Machine.execStandStallPost stand s
  | .tqCtlWrite c q v => Sys2Proof.Machine.execTqCtlWrite c q v s
  | .tportCtlWrite c p v => Sys2Proof.Machine.execTportCtlWrite c p v s
  | .contextStoreWrite c idx v => Sys2Proof.Machine.execContextStoreWrite c idx v s
  | .mput c t k size r idx => Sys2Proof.Machine.execMput c t k size r idx s
  | .send c t k cs ga len rel => Sys2Proof.Machine.execSend c t k cs ga len rel s
  | .recv c t k cs ga vd gd => Sys2Proof.Machine.execRecv c t k cs ga vd gd s
  | .cinc c t k cs ga gb imm => Sys2Proof.Machine.execCinc c t k cs ga gb imm s
  | .cwait c t k cs ga gb wide => Sys2Proof.Machine.execCwait c t k cs ga gb wide s
  | .crd c t k cs ga gd hi => Sys2Proof.Machine.execCrd c t k cs ga gd hi s
  | .chstat c t k cs ga gd side => Sys2Proof.Machine.execChstat c t k cs ga gd side s
  | .sendPoolDepart c => Sys2Proof.Machine.execSendPoolDepart c s
  | .channelMessageLand c => Sys2Proof.Machine.execChannelMessageLand c s
  | .resumeSend c => Sys2Proof.Machine.execResumeSend c s
  | .ackLand c => Sys2Proof.Machine.execAckLand c s
  | .nackLand c => Sys2Proof.Machine.execNackLand c s
  | .resumeLand c => Sys2Proof.Machine.execResumeLand c s
  | .rejectLand c => Sys2Proof.Machine.execRejectLand c s
  | .quiescentWaitTrip c => Sys2Proof.Machine.execQuiescentWaitTrip c s
  | .kAdd c v => Sys2Proof.Machine.execKAdd c v s
  | .chOutCtlWrite c e v => Sys2Proof.Machine.execChOutCtlWrite c e v s
  | .chInCtlWrite c e v => Sys2Proof.Machine.execChInCtlWrite c e v s
  | .routerOutputArbitrate c => Sys2Proof.Machine.execRouterOutputArbitrate c s
  | .seamCrossing c side => Sys2Proof.Machine.execSeamCrossing c side s
  | .understoryAccess req => Sys2Proof.Machine.execUnderstoryAccess req s
  | .understoryNotice c => Sys2Proof.Machine.execUnderstoryNotice c s
  | .sopen c t k stream cm cr ga => Sys2Proof.Machine.execSopen c t k stream cm cr ga s
  | .snext c t k stream gd => Sys2Proof.Machine.execSnext c t k stream gd s
  | .sclose c t k stream => Sys2Proof.Machine.execSclose c t k stream s
  | .sresume c t k stream => Sys2Proof.Machine.execSresume c t k stream s
  | .sstat c t k stream gd sel => Sys2Proof.Machine.execSstat c t k stream gd sel s
  | .streamRequestIssue c => Sys2Proof.Machine.execStreamRequestIssue c s
  | .streamReplyLand c => Sys2Proof.Machine.execStreamReplyLand c s
  | .streamWriteAckLand c => Sys2Proof.Machine.execStreamWriteAckLand c s
  | .strCtlResume c stream => Sys2Proof.Machine.execStrCtlResume c stream s
  | .strCtlAbort c stream => Sys2Proof.Machine.execStrCtlAbort c stream s
  | .portRequestAccept port link => Sys2Proof.Machine.execPortRequestAccept port link s
  | .portReadReply port => Sys2Proof.Machine.execPortReadReply port s
  | .portWriteAck port => Sys2Proof.Machine.execPortWriteAck port s
  | .mergeEntryExpire port block => Sys2Proof.Machine.execMergeEntryExpire port block s
  | .patrolScrub port => Sys2Proof.Machine.execPatrolScrub port s
  | .mpCntClr port => Sys2Proof.Machine.execMpCntClr port s
  | .backInvalidate line => Sys2Proof.Machine.execBackInvalidate line s
  | .hostSnoopResponse line data => Sys2Proof.Machine.execHostSnoopResponse line data s
  | .hostWindowRead addr => Sys2Proof.Machine.execHostWindowRead addr s
  | .hostWindowWrite addr data => Sys2Proof.Machine.execHostWindowWrite addr data s
  | .hdmDecoderCommit base range => Sys2Proof.Machine.execHdmDecoderCommit base range s
  | .hmemAccessComplete ok => Sys2Proof.Machine.execHmemAccessComplete ok s
  | .coolingWrite v => Sys2Proof.Machine.execCoolingWrite v s
  | .hostWinWrite off v => Sys2Proof.Machine.execHostWinWrite off v s
  | .sqCfgWrite ring off v => Sys2Proof.Machine.execSqCfgWrite ring off v s
  | .cqCfgWrite ring off v => Sys2Proof.Machine.execCqCfgWrite ring off v s
  | .rrCfgWrite debug off v => Sys2Proof.Machine.execRrCfgWrite debug off v s
  | .sqTailDb ring v => Sys2Proof.Machine.execSqTailDb ring v s
  | .cqHeadDb ring v => Sys2Proof.Machine.execCqHeadDb ring v s
  | .evtHeadDb v => Sys2Proof.Machine.execEvtHeadDb v s
  | .dbgHeadDb v => Sys2Proof.Machine.execDbgHeadDb v s
  | .submissionFetch pair => Sys2Proof.Machine.execSubmissionFetch pair s
  | .recordWrite ring => Sys2Proof.Machine.execRecordWrite ring s
  | .eventBacklogPost => Sys2Proof.Machine.execEventBacklogPost s
  | .nop pair => Sys2Proof.Machine.execNop pair s
  | .memMap pair => Sys2Proof.Machine.execMemMap pair s
  | .cfgWrite pair => Sys2Proof.Machine.execCfgWrite pair s
  | .cfgRead pair => Sys2Proof.Machine.execCfgRead pair s
  | .standLoad pair => Sys2Proof.Machine.execStandLoad pair s
  | .standCtlStart pair => Sys2Proof.Machine.execStandCtlStart pair s
  | .standCtlStop pair => Sys2Proof.Machine.execStandCtlStop pair s
  | .standCtlAbort pair => Sys2Proof.Machine.execStandCtlAbort pair s
  | .standCtlUnload pair => Sys2Proof.Machine.execStandCtlUnload pair s
  | .copy pair => Sys2Proof.Machine.execCopy pair s
  | .fill pair => Sys2Proof.Machine.execFill pair s
  | .compare pair => Sys2Proof.Machine.execCompare pair s
  | .dmaEngineAssign engine => Sys2Proof.Machine.execDmaEngineAssign engine s
  | .dmaReadRequest engine => Sys2Proof.Machine.execDmaReadRequest engine s
  | .dmaWriteBeat engine => Sys2Proof.Machine.execDmaWriteBeat engine s
  | .dmaTransferComplete engine => Sys2Proof.Machine.execDmaTransferComplete engine s
  | .dmaCntClr engine => Sys2Proof.Machine.execDmaCntClr engine s
  | .flowOpenPort pair => Sys2Proof.Machine.execFlowOpenPort pair s
  | .flowOpenFlow pair => Sys2Proof.Machine.execFlowOpenFlow pair s
  | .flowOpenStat pair => Sys2Proof.Machine.execFlowOpenStat pair s
  | .flowClose pair => Sys2Proof.Machine.execFlowClose pair s
  | .gladePacketReceive port d => Sys2Proof.Machine.execGladePacketReceive port d s
  | .gladeAckReceive port d => Sys2Proof.Machine.execGladeAckReceive port d s
  | .gladePeerClose port d => Sys2Proof.Machine.execGladePeerClose port d s
  | .gladeRetransmit flow => Sys2Proof.Machine.execGladeRetransmit flow s
  | .gladePacketSend flow => Sys2Proof.Machine.execGladePacketSend flow s
  | .mreadReply flow => Sys2Proof.Machine.execMreadReply flow s
  | .rxRingDeliver flow => Sys2Proof.Machine.execRxRingDeliver flow s
  | .frameStart flow => Sys2Proof.Machine.execFrameStart flow s
  | .frameDone flow => Sys2Proof.Machine.execFrameDone flow s
  | .frameOpen pair => Sys2Proof.Machine.execFrameOpen pair s
  | .frameClose pair => Sys2Proof.Machine.execFrameClose pair s
  | .ethRxOther port frame => Sys2Proof.Machine.execEthRxOther port frame s
  | .heartbeat die => Sys2Proof.Machine.execHeartbeat die s
  | .leadTakeover => Sys2Proof.Machine.execLeadTakeover s
  | .powerWindow meanMw => Sys2Proof.Machine.execPowerWindow meanMw s
  | .dvfsStepUpSwitch die => Sys2Proof.Machine.execDvfsStepUpSwitch die s
  | .sensorSample die readings => Sys2Proof.Machine.execSensorSample die readings s
  | .thermalGuardTrip die grove => Sys2Proof.Machine.execThermalGuardTrip die grove s
  | .fwUpdate pair => Sys2Proof.Machine.execFwUpdate pair s
  | .dieFwReady die ok => Sys2Proof.Machine.execDieFwReady die ok s
  | .extEvtCtlWrite c v => Sys2Proof.Machine.execExtEvtCtlWrite c v s
  | .groveServiceFence pair => Sys2Proof.Machine.execGroveServiceFence pair s
  | .groveServiceTest pair => Sys2Proof.Machine.execGroveServiceTest pair s
  | .groveServiceReturn pair => Sys2Proof.Machine.execGroveServiceReturn pair s
  | .groveServiceService pair => Sys2Proof.Machine.execGroveServiceService pair s
  | .groveTestDone grove ended => Sys2Proof.Machine.execGroveTestDone grove ended s
  | .livenessProbe p => Sys2Proof.Machine.execLivenessProbe p s
  | .dieHeartbeatLossProbe die answers => Sys2Proof.Machine.execDieHeartbeatLossProbe die answers s
  | .dieTrunkLost die => Sys2Proof.Machine.execDieTrunkLost die s
  | .checkCfgWrite c v => Sys2Proof.Machine.execCheckCfgWrite c v s
  | .getIdentity msg => Sys2Proof.Machine.execGetIdentity msg s
  | .attest msg => Sys2Proof.Machine.execAttest msg s
  | .keyExchange msg => Sys2Proof.Machine.execKeyExchange msg s
  | .closeMessage msg => Sys2Proof.Machine.execCloseMessage msg s
  | .ideKeys msg => Sys2Proof.Machine.execIdeKeys msg s
  | .ideKeySwitch => Sys2Proof.Machine.execIdeKeySwitch s
  | .sessionIdentity pair => Sys2Proof.Machine.execSessionIdentity pair s
  | .sessionSeal pair => Sys2Proof.Machine.execSessionSeal pair s
  | .sessionImport pair => Sys2Proof.Machine.execSessionImport pair s
  | .sessionExport pair => Sys2Proof.Machine.execSessionExport pair s
  | .sessionClose pair => Sys2Proof.Machine.execSessionClose pair s
  | .sessionUnseal pair => Sys2Proof.Machine.execSessionUnseal pair s
  | .fwLoadLoad pair => Sys2Proof.Machine.execFwLoadLoad pair s
  | .fwLoadSetState pair => Sys2Proof.Machine.execFwLoadSetState pair s
  | .functionReset => Sys2Proof.Machine.execFunctionReset s
  | .lightGroveDeferredReset c => Sys2Proof.Machine.execLightGroveDeferredReset c s
  | .coreReset c => Sys2Proof.Machine.execCoreReset c s
  | .dbgStop c v => Sys2Proof.Machine.execDbgStop c v s
  | .dbgStep c v => Sys2Proof.Machine.execDbgStep c v s
  | .dbgResume c v => Sys2Proof.Machine.execDbgResume c v s
  | .debugRequest c t k cs ga len rel => Sys2Proof.Machine.execDebugRequest c t k cs ga len rel s
  | .debugReplyLand c => Sys2Proof.Machine.execDebugReplyLand c s
  | .dbgReplyWrite c v => Sys2Proof.Machine.execDbgReplyWrite c v s
  | .threadWindowWrite c off v => Sys2Proof.Machine.execThreadWindowWrite c off v s
  | .traceCtlWrite c v => Sys2Proof.Machine.execTraceCtlWrite c v s
  | .debugRecordPost c => Sys2Proof.Machine.execDebugRecordPost c s
  | .bpWpWrite c off v => Sys2Proof.Machine.execBpWpWrite c off v s
  | .bypass => Sys2Proof.Machine.execBypass s
  | .idcode => Sys2Proof.Machine.execIdcode s
  | .samplePreload pins => Sys2Proof.Machine.execSamplePreload pins s
  | .extest => Sys2Proof.Machine.execExtest s
  | .entdaa addr => Sys2Proof.Machine.execEntdaa addr s
  | .i3cPrivateRead reg => Sys2Proof.Machine.execI3cPrivateRead reg s
  | .configRegisterWrite tgt off v => Sys2Proof.Machine.execConfigRegisterWrite tgt off v s
  | .dmaReadReply engine => Sys2Proof.Machine.execDmaReadReply engine s
  | .portBlockWriteAckLand port => Sys2Proof.Machine.execPortBlockWriteAckLand port s
  | .msixVectorUnmask e => Sys2Proof.Machine.execMsixVectorUnmask e s
  | .doeDiscovery idx => Sys2Proof.Machine.execDoeDiscovery idx s
  | .hdmDecoderUncommit => Sys2Proof.Machine.execHdmDecoderUncommit s
  | .ethLinkUp port => Sys2Proof.Machine.execEthLinkUp port s
  | .ethLinkDown port => Sys2Proof.Machine.execEthLinkDown port s
  | .auxSupplyApplied => Sys2Proof.Machine.execAuxSupplyApplied s
  | .auxSupplyRemoved => Sys2Proof.Machine.execAuxSupplyRemoved s

end Sys2Proof.Machine
end

