-- ==== Sys2Proof/Safety.lean ====
section
/-! DEFINITION. The terms in which statements are made: a command that completes, what a command leaves unchanged, an instruction that
its thread issues, and what its issue leaves behind. -/
namespace Sys2Proof.Machine

/-- The command completes: it answers a next state, of which P holds. -/
def Completes (i : Instr) (s : State) (P : State → Prop) : Prop := ∃ u, exec i s = .next u ∧ P u

/-- The command leaves the state as it is (where its occasion is absent, the model's choice: log 3). -/
def Keeps (i : Instr) (s : State) : Prop := exec i s = .next s

/-- Everything of the module but its cores is the same, and every core but core c. -/
def OnlyCore (s u : State) (c : Nat) : Prop := u = { s with cores := u.cores } ∧ ∀ w, w ≠ c → u.core w = s.core w

/-- Core c at its die's cycle count (R74). -/
def State.now (s : State) (c : Nat) : Core := (s.core c).inCycle (s.die (dieOf c)).cyc

/-- The core as the operation of an instruction of thread t finds it: a VROUTE or VDELTA that the thread was stopped in at its present
level, and that this instruction does not resume, is no longer in progress (log 59). -/
def State.seen (s : State) (c : Nat) (t : Fin 4) (op : Op) : Core := (s.now c).dropRun t.val (opUnit op)

/-- Thread t of core c stands at an instruction that it may issue, matched by no breakpoint, and the core is between instructions
(Table 04.1, R112, R114, R491). -/
def State.atIssue (s : State) (c : Nat) (t : Fin 4) : Bool :=
  coreOk c && s.runs c && (s.core c).canIssue t.val && ((s.core c).breakpoint t.val).isNone && (s.core c).t.reqs.isEmpty

/-- The instruction suits the thread's progress register (R115) and needs no port that another thread's resumable instruction claims
(R124). -/
def State.mayIssue (s : State) (c : Nat) (t : Fin 4) (op : Op) : Bool :=
  s.atIssue c t
    && (!((s.core c).th t.val).prog.valid || decide (((s.core c).th t.val).prog.unit.toNat = opUnit op))
    && !(s.seen c t op).claimHeld t.val op

/-- Thread t of core c issues the instruction: it may issue, its word passes the encoding check and its condition holds (R57, R59). -/
def State.ready (s : State) (c : Nat) (t : Fin 4) (k : BitVec 4) (op : Op) : Bool :=
  s.mayIssue c t op && encOk k op && condHolds k ((s.core c).th t.val).flags

/-- A thread that was stepping when it issued is STOPPED for reason STEP (R485). -/
def Thread.stepEnd (was : Bool) (th : Thread) : Thread :=
  if was then { th with stop := 4, stepping := false, skipBp := false } else th

/-- An instruction of thread t of core c has issued, and y is the core that its operation left: the thread stands past the instruction
(adv) or where the operation put it, one issue is counted, and nothing else has changed but the trace buffer with its registers and, in
a stepping thread, the stop (R74, R85, R485, R495). -/
structure Issued (s u : State) (c : Nat) (t : Fin 4) (adv : Bool) (y : Core) : Prop where
  module : OnlyCore s u c
  thread : (u.core c).th t.val = ((if adv then (y.th t.val).advance else y.th t.val)).stepEnd ((s.core c).th t.val).stepping
  threads : ∀ v, v ≠ t.val → (u.core c).th v = y.th v
  field : (u.core c).f = { y.f with thr := (u.core c).f.thr, dbg := { y.f.dbg with trace := (u.core c).f.dbg.trace } }
  trunk : (u.core c).t = { y.t with
    cnt := (u.core c).t.cnt, traceNext := (u.core c).t.traceNext, traceCnt := (u.core c).t.traceCnt,
    traceFull := (u.core c).t.traceFull, notices := (u.core c).t.notices }
  notices : y.t.ringEn = false → (u.core c).t.notices = y.t.notices
  counts : ∀ i, sget 0 (u.core c).t.cnt i = sget 0 y.t.cnt i + if i = cntPerf t.val then 1 else 0

/-- Thread t of core c issues an instruction that goes on to the next one, its operation leaving the core y. -/
def Retires (i : Instr) (s : State) (c : Nat) (t : Fin 4) (y : Core) : Prop := Completes i s fun u => Issued s u c t true y

/-- Thread t of core c issues an instruction that sets its own PC, its operation leaving the core y. -/
def Branches (i : Instr) (s : State) (c : Nat) (t : Fin 4) (y : Core) : Prop := Completes i s fun u => Issued s u c t false y

/-- An instruction of thread t of core c raises the cause f on the core x: the core takes it, and the instruction has no other effect
(R64, R91, R109, R115). -/
def Raises (i : Instr) (s : State) (c : Nat) (t : Fin 4) (x : Core) (f : FaultRec) : Prop :=
  Completes i s fun u => OnlyCore s u c
    ∧ u.core c = ((x.modTh t.val Thread.consume).raise t.val f).endStep t.val ((s.core c).th t.val).stepping

/-- Row i is instruction op of thread t of core c, and where its thread issues it, it changes thread t by f and goes on. -/
def Writes (i : Instr) (s : State) (c : Nat) (t : Fin 4) (k : BitVec 4) (op : Op) (f : Thread → Thread) : Prop :=
  s.ready c t k op = true → Retires i s c t ((s.seen c t op).modTh t.val f)

/-- Nothing stands in the way of a checked scratchpad access of n bytes at a by thread t: no tracked range holds it, no watchpoint
matches, and no word that it reads, or would merge, is uncorrectable (R127, R128, R134, R492). -/
def Core.open_ (x : Core) (t a n : Nat) (write : Bool) : Bool :=
  !x.rangeHeld a n write && (x.watchpoint t a n write).isNone
    && (x.f.spad.firstUe (if write then partWords a n else wordsOf a n)).isNone

/-- The core after a read of some scratchpad words: correctable ones are counted and queued for write-back, nothing else (R126). -/
def Core.noted (x : Core) (ws : List Nat) : Core := { x with f := { x.f with spad := x.f.spad.touch ws } }

/-- The number that the n scratchpad bytes from address a spell, lowest first (R56). -/
def Core.number (x : Core) (a n : Nat) : Nat := natOfBytes (readBytes x.f.spad.mem a n)

/-- y is x with bytes bs stored in scratchpad at a: those bytes, untagged granules there, and no other byte or tag changed; the error
marks and counts of the scratchpad aside, all else as in x, but that lines held for a conflict are discarded where the store touches one
(R99, R122, R128). -/
structure Stored (x y : Core) (a : Nat) (bs : List Byte) : Prop where
  rest : y = { x with f := { x.f with spad := y.f.spad, conf := x.f.conf.bind (Conflict.keep a bs.length) } }
  inside : ∀ b, a ≤ b → b < a + bs.length → sget 0 y.f.spad.mem b = bs.getD (b - a) 0
  outside : ∀ b, b < a ∨ a + bs.length ≤ b → sget 0 y.f.spad.mem b = sget 0 x.f.spad.mem b
  tags : ∀ g, sget false y.f.spad.tags g = if g ∈ granulesOf a bs.length then false else sget false x.f.spad.tags g

/-- The instruction that a row names, with its core, thread and condition code; none for a row that is no instruction. -/
def rowOp (i : Instr) : Option (Nat × Fin 4 × BitVec 4 × Op) :=
  match i with
  | .add c t k gd ga gb sf => some (c, t, k, .alu .add gd ga gb sf)
  | .adc c t k gd ga gb sf => some (c, t, k, .alu .adc gd ga gb sf)
  | .sub c t k gd ga gb sf => some (c, t, k, .alu .sub gd ga gb sf)
  | .sbc c t k gd ga gb sf => some (c, t, k, .alu .sbc gd ga gb sf)
  | .and c t k gd ga gb sf => some (c, t, k, .alu .and gd ga gb sf)
  | .or c t k gd ga gb sf => some (c, t, k, .alu .or gd ga gb sf)
  | .xor c t k gd ga gb sf => some (c, t, k, .alu .xor gd ga gb sf)
  | .andn c t k gd ga gb sf => some (c, t, k, .alu .andn gd ga gb sf)
  | .shl c t k gd ga gb sf => some (c, t, k, .alu .shl gd ga gb sf)
  | .shr c t k gd ga gb sf => some (c, t, k, .alu .shr gd ga gb sf)
  | .sar c t k gd ga gb sf => some (c, t, k, .alu .sar gd ga gb sf)
  | .ror c t k gd ga gb sf => some (c, t, k, .alu .ror gd ga gb sf)
  | .mul c t k gd ga gb sf => some (c, t, k, .alu .mul gd ga gb sf)
  | .mulhs c t k gd ga gb sf => some (c, t, k, .alu .mulhs gd ga gb sf)
  | .mulhu c t k gd ga gb sf => some (c, t, k, .alu .mulhu gd ga gb sf)
  | .min c t k gd ga gb sf => some (c, t, k, .alu .min gd ga gb sf)
  | .max c t k gd ga gb sf => some (c, t, k, .alu .max gd ga gb sf)
  | .minu c t k gd ga gb sf => some (c, t, k, .alu .minu gd ga gb sf)
  | .maxu c t k gd ga gb sf => some (c, t, k, .alu .maxu gd ga gb sf)
  | .clz c t k gd ga => some (c, t, k, .clz gd ga)
  | .bperm c t k gd ga gb => some (c, t, k, .bperm gd ga gb)
  | .cmp c t k ga gb => some (c, t, k, .cmp ga gb)
  | .addi c t k gd ga sf imm => some (c, t, k, .aluImm .add gd ga sf imm)
  | .andi c t k gd ga sf imm => some (c, t, k, .aluImm .and gd ga sf imm)
  | .ori c t k gd ga sf imm => some (c, t, k, .aluImm .or gd ga sf imm)
  | .xori c t k gd ga sf imm => some (c, t, k, .aluImm .xor gd ga sf imm)
  | .cmpi c t k ga imm => some (c, t, k, .cmpi ga imm)
  | .movi c t k gd imm => some (c, t, k, .movi gd imm)
  | .movhi c t k gd imm => some (c, t, k, .movhi gd imm)
  | .shli c t k gd ga amount sf => some (c, t, k, .shiftImm 0 gd ga amount sf)
  | .shri c t k gd ga amount sf => some (c, t, k, .shiftImm 1 gd ga amount sf)
  | .sari c t k gd ga amount sf => some (c, t, k, .shiftImm 2 gd ga amount sf)
  | .rori c t k gd ga amount sf => some (c, t, k, .shiftImm 3 gd ga amount sf)
  | .bfi c t k gd ga pos width => some (c, t, k, .bfi gd ga pos width)
  | .bfx c t k gd ga pos width sgn => some (c, t, k, .bfx gd ga pos width sgn)
  | .macd c t k gd z p size => some (c, t, k, .macd gd z p size)
  | .vmacd c t k vd z p ty => some (c, t, k, .vmacd vd z p ty)
  | .ldr c t k rd cr ga size imm => some (c, t, k, .ldr rd cr ga size imm)
  | .str c t k rs cr ga size imm => some (c, t, k, .str rs cr ga size imm)
  | .lda c t k rd ag p size => some (c, t, k, .lda rd ag p size)
  | .sta c t k rs ag p size => some (c, t, k, .sta rs ag p size)
  | .agset c t k ag ga field => some (c, t, k, .agset ag ga field)
  | .agget c t k ag gd field => some (c, t, k, .agget ag gd field)
  | .agadd c t k ag imm => some (c, t, k, .agadd ag imm)
  | .agbind c t k ag cr => some (c, t, k, .agbind ag cr)
  | .b c t k off => some (c, t, k, .b off)
  | .bl c t k off => some (c, t, k, .bl off)
  | .br c t k ga => some (c, t, k, .br ga false)
  | .blr c t k ga => some (c, t, k, .br ga true)
  | .rdsr c t k gd sr => some (c, t, k, .rdsr gd sr)
  | .iflush c t k => some (c, t, k, .iflush)
  | .vadd c t k vd va vb ty => some (c, t, k, .vop .add vd va vb ty)
  | .vsub c t k vd va vb ty => some (c, t, k, .vop .sub vd va vb ty)
  | .vmul c t k vd va vb ty => some (c, t, k, .vop .mul vd va vb ty)
  | .vfma c t k vd va vb ty => some (c, t, k, .vop .fma vd va vb ty)
  | .vmin c t k vd va vb ty => some (c, t, k, .vop .min vd va vb ty)
  | .vmax c t k vd va vb ty => some (c, t, k, .vop .max vd va vb ty)
  | .vand c t k vd va vb ty => some (c, t, k, .vop .and vd va vb ty)
  | .vor c t k vd va vb ty => some (c, t, k, .vop .or vd va vb ty)
  | .vxor c t k vd va vb ty => some (c, t, k, .vop .xor vd va vb ty)
  | .vshl c t k vd va vb ty => some (c, t, k, .vop .shl vd va vb ty)
  | .vshr c t k vd va vb ty => some (c, t, k, .vop .shr vd va vb ty)
  | .vsel c t k vd va vb ty => some (c, t, k, .vop .sel vd va vb ty)
  | .vabs c t k vd va ty => some (c, t, k, .vop .abs vd va 0 ty)
  | .vadds c t k vd va vb ty => some (c, t, k, .vop .adds vd va vb ty)
  | .vsubs c t k vd va vb ty => some (c, t, k, .vop .subs vd va vb ty)
  | .vcmp c t k vd va vb cc sf ty => some (c, t, k, .vcmp vd va vb cc sf ty)
  | .vbcast c t k vd ga ln ty => some (c, t, k, .vbcast vd ga ln ty)
  | .vext c t k gd va ln ty => some (c, t, k, .vext gd va ln ty)
  | .vins c t k vd ga ln ty => some (c, t, k, .vins vd ga ln ty)
  | .vredsum c t k vd va ty => some (c, t, k, .vred .sum vd va ty)
  | .vredmax c t k vd va ty => some (c, t, k, .vred .max vd va ty)
  | .vredmin c t k vd va ty => some (c, t, k, .vred .min vd va ty)
  | .vcvt c t k vd va src dst part rm ovf => some (c, t, k, .vcvt vd va src dst part rm ovf)
  | .cld c t k cd cb ga => some (c, t, k, .cld cd cb ga)
  | .cst c t k cs cb ga => some (c, t, k, .cst cs cb ga)
  | .cmov c t k cd cs => some (c, t, k, .cmov cd cs false)
  | .cclr c t k cd cs => some (c, t, k, .cmov cd cs true)
  | .cnarrow c t k cd cs ga gb => some (c, t, k, .cnarrow cd cs ga gb)
  | .cinfo c t k gd cs field => some (c, t, k, .cinfo gd cs field)
  | .cstamp c t k cd cs ca ga => some (c, t, k, .cstamp cd cs ca ga)
  | .credeem c t k cd cs ca => some (c, t, k, .credeem cd cs ca)
  | .ctest c t k cs ga => some (c, t, k, .ctest cs ga)
  | .crevoke c t k ca ga => some (c, t, k, .crevoke ca ga)
  | .trap c t k n cs => some (c, t, k, .trap n cs)
  | .rfe c t k csys => some (c, t, k, .rfe csys)
  | .ssrd c t k field gd set => some (c, t, k, .ssrd field gd set)
  | .sswr c t k field ga set => some (c, t, k, .sswr field ga set)
  | .scrd c t k cfield cd set => some (c, t, k, .scrd cfield cd set)
  | .scwr c t k cfield cs set => some (c, t, k, .scwr cfield cs set)
  | .remoteWrite c t k cs ga len rel => some (c, t, k, .send cs ga len rel)
  | .tcfg c t k target fmt shape layout => some (c, t, k, .tcfg target fmt shape layout)
  | .tfree c t k tmask amask => some (c, t, k, .tfree tmask amask)
  | .mstat c t k gd sel => some (c, t, k, .mstat gd sel)
  | .aclr c t k amask => some (c, t, k, .aclr amask)
  | .azero c t k amask => some (c, t, k, .azero amask)
  | .tld c t k tile ag p => some (c, t, k, .tld tile ag p)
  | .tst c t k tile ag p => some (c, t, k, .tst tile ag p)
  | .mma c t k acc ta tb z tm => some (c, t, k, .mma acc ta tb z 0 tm)
  | .mma24 c t k acc ta tb z tm => some (c, t, k, .mma acc ta tb z 1 tm)
  | .mma14 c t k acc ta tb z tm => some (c, t, k, .mma acc ta tb z 2 tm)
  | .mmaBitmap c t k acc ta tb z tm => some (c, t, k, .mma acc ta tb z 3 tm)
  | .aget c t k vd acc pair => some (c, t, k, .aget vd acc pair)
  | .aput c t k va acc pair => some (c, t, k, .aput va acc pair)
  | .vroute c t k gn gb cc fin p => some (c, t, k, .vroute gn gb cc fin p)
  | .vdelta c t k layer gn => some (c, t, k, .vdelta layer gn)
  | .dlframe c t k layer gd ga => some (c, t, k, .dlframe layer gd ga)
  | .ctxsw c t k ctx disp => some (c, t, k, .ctxsw ctx disp)
  | .tsend c t k port va len rel => some (c, t, k, .tsend port va len rel)
  | .tend c t k => some (c, t, k, .tend)
  | .tdone c t k cs ga => some (c, t, k, .tdone cs ga)
  | .stctlStart c t k cs => some (c, t, k, .stctl cs 0)
  | .stctlStop c t k cs => some (c, t, k, .stctl cs 1)
  | .stctlAbort c t k cs => some (c, t, k, .stctl cs 2)
  | .tstat c t k gd sel => some (c, t, k, .tstat gd sel)
  | .mput c t k size r idx => some (c, t, k, .mput size r idx)
  | .send c t k cs ga len rel => some (c, t, k, .send cs ga len rel)
  | .recv c t k cs ga vd gd => some (c, t, k, .recv cs ga vd gd)
  | .cinc c t k cs ga gb imm => some (c, t, k, .cinc cs ga gb imm)
  | .cwait c t k cs ga gb wide => some (c, t, k, .cwait cs ga gb wide)
  | .crd c t k cs ga gd hi => some (c, t, k, .crd cs ga gd hi)
  | .chstat c t k cs ga gd side => some (c, t, k, .chstat cs ga gd side)
  | .sopen c t k stream cm cr ga => some (c, t, k, .sopen stream cm cr ga)
  | .snext c t k stream gd => some (c, t, k, .snext stream gd)
  | .sclose c t k stream => some (c, t, k, .sclose stream)
  | .sresume c t k stream => some (c, t, k, .sresume stream)
  | .sstat c t k stream gd sel => some (c, t, k, .sstat stream gd sel)
  | .debugRequest c t k cs ga len rel => some (c, t, k, .send cs ga len rel)
  | _ => none

end Sys2Proof.Machine
end

