-- ==== Sys2Proof/Certificates/Slice0/Obligations.lean ====
section
/-! DEFINITION. The statements for the provers. An instruction row's statements say: where its thread may issue it and the premises
named hold, the row completes, and the core its operation leaves is the one given; `Issued` adds the frame of everything else. -/
open Sys2Proof Sys2Proof.Machine

/-! ## Issue (R57, R59, R89, R115) -/

/-- R59: an instruction whose condition is false, of any instruction row, takes its issue and has no other effect. -/
def FalseConditionHasNoEffect : Prop :=
  ∀ (i : Instr) (s : State) (c : Nat) (t : Fin 4) (k : BitVec 4) (op : Op), rowOp i = some (c, t, k, op) →
    s.atIssue c t = true → encOk k op = true → condHolds k ((s.core c).th t.val).flags = false →
    Retires i s c t (s.now c)

/-- R57, R64, R115: of any instruction row, a word that fails an encoding check, and an instruction that does not suit a valid progress
register, is an illegal instruction: cause 2 with the instruction's PC and its word, and no other effect. -/
def IllegalInstructionTakesCause2 : Prop :=
  ∀ (i : Instr) (s : State) (c : Nat) (t : Fin 4) (k : BitVec 4) (op : Op), rowOp i = some (c, t, k, op) →
    s.atIssue c t = true →
    (encOk k op = false
      ∨ (condHolds k ((s.core c).th t.val).flags = true ∧ ((s.core c).th t.val).prog.valid = true
        ∧ ((s.core c).th t.val).prog.unit.toNat ≠ opUnit op)) →
    Raises i s c t (s.now c) { cause := 2, spc := ((s.core c).th t.val).pc, sinfo := encodeOp k op }

/-- R57, R59, R64, R115: of every instruction row: a false condition has no effect, and an illegal instruction takes cause 2. -/
def Obligations.EveryInstructionRowIsCheckedBeforeItsEffect : Prop :=
  FalseConditionHasNoEffect ∧ IllegalInstructionTakesCause2

/-- R87, R112, R398: where the core's grove does not run, or the thread cannot issue (disabled, stopped, held by a fault, double fault) and
has no resumable instruction in progress, no instruction row has an effect; and a row that names no core of the module faults by that
name. -/
def ThreadThatCannotIssueDoesNothing : Prop :=
  ∀ (i : Instr) (s : State) (c : Nat) (t : Fin 4) (k : BitVec 4) (op : Op), rowOp i = some (c, t, k, op) →
    (coreOk c = true → (s.runs c = false ∨ ((s.core c).canIssue t.val = false ∧ (s.core c).running t.val = false)) →
      exec i s = .next s)
    ∧ (coreOk c = false → exec i s = .fault .absentTarget)

/-! ## Scalar instructions (chapter 03) -/

/-- The row of a register ALU function. -/
def Sys2Proof.Alu.row (f : Alu) (c : Nat) (t : Fin 4) (k : BitVec 4) (gd ga gb : BitVec 5) (sf : Bool) : Instr :=
  match f with
  | .add => .add c t k gd ga gb sf | .adc => .adc c t k gd ga gb sf | .sub => .sub c t k gd ga gb sf
  | .sbc => .sbc c t k gd ga gb sf | .and => .and c t k gd ga gb sf | .or => .or c t k gd ga gb sf
  | .xor => .xor c t k gd ga gb sf | .andn => .andn c t k gd ga gb sf | .shl => .shl c t k gd ga gb sf
  | .shr => .shr c t k gd ga gb sf | .sar => .sar c t k gd ga gb sf | .ror => .ror c t k gd ga gb sf
  | .mul => .mul c t k gd ga gb sf | .mulhs => .mulhs c t k gd ga gb sf | .mulhu => .mulhu c t k gd ga gb sf
  | .min => .min c t k gd ga gb sf | .max => .max c t k gd ga gb sf | .minu => .minu c t k gd ga gb sf
  | .maxu => .maxu c t k gd ga gb sf

/-- The result of a register ALU function of a and b with carry C, by exact arithmetic narrowed to 32 bits (R60, R68). -/
def Sys2Proof.Alu.value (f : Alu) (carry : Bool) (a b : Word) : Word :=
  match f with
  | .add => BitVec.ofInt 32 (a.toInt + b.toInt)
  | .adc => BitVec.ofInt 32 (a.toInt + b.toInt + b2n carry)
  | .sub => BitVec.ofInt 32 (a.toInt - b.toInt)
  | .sbc => BitVec.ofInt 32 (a.toInt - b.toInt - b2n carry)
  | .and => a &&& b
  | .or => a ||| b
  | .xor => a ^^^ b
  | .andn => a &&& ~~~b
  | .shl => if b.toNat % 64 < 32 then BitVec.ofNat 32 (a.toNat * 2 ^ (b.toNat % 64)) else 0
  | .shr => BitVec.ofNat 32 (a.toNat / 2 ^ (b.toNat % 64))
  | .sar => if b.toNat % 64 < 32 then BitVec.ofInt 32 (a.toInt / 2 ^ (b.toNat % 64)) else if a.msb then -1 else 0
  | .ror => BitVec.ofNat 32 (a.toNat / 2 ^ (b.toNat % 32)) ||| BitVec.ofNat 32 (a.toNat * 2 ^ (32 - b.toNat % 32))
  | .mul => BitVec.ofInt 32 (a.toInt * b.toInt)
  | .mulhs => BitVec.ofInt 32 (a.toInt * b.toInt / 2 ^ 32)
  | .mulhu => BitVec.ofNat 32 (a.toNat * b.toNat / 2 ^ 32)
  | .min => if b.toInt < a.toInt then b else a
  | .max => if a.toInt < b.toInt then b else a
  | .minu => if b.toNat < a.toNat then b else a
  | .maxu => if a.toNat < b.toNat then b else a

/-- The flags of a register ALU function with result r, by Table 03.4: N, Z, C, V from the most significant. -/
def Sys2Proof.Alu.flagsOf (f : Alu) (old : BitVec 4) (a b r : Word) : BitVec 4 :=
  let nz := fun (c v : Bool) => BitVec.ofBoolListLE [v, c, decide (r = 0), r.msb]
  let cin : Nat := b2n (old.getLsbD 1)
  let past := fun (x : Int) => !decide (-2 ^ 31 ≤ x ∧ x < 2 ^ 31)
  match f with
  | .add => nz (decide (2 ^ 32 ≤ a.toNat + b.toNat)) (past (a.toInt + b.toInt))
  | .adc => nz (decide (2 ^ 32 ≤ a.toNat + b.toNat + cin)) (past (a.toInt + b.toInt + cin))
  | .sub => nz (decide (a.toNat < b.toNat)) (past (a.toInt - b.toInt))
  | .sbc => nz (decide (a.toNat < b.toNat + cin)) (past (a.toInt - b.toInt - cin))
  | _ => nz (old.getLsbD 1) (old.getLsbD 0)

/-- The thread with Gd written with the result of an ALU function, and the flags with S = 1. -/
def Sys2Proof.Alu.effect (f : Alu) (gd : BitVec 5) (sf : Bool) (a b : Word) (th : Thread) : Thread :=
  let r := f.value (th.flags.getLsbD 1) a b
  { th.wg gd r with flags := if sf then f.flagsOf th.flags a b r else th.flags }

/-- R60, R68: every register ALU row, where its thread issues it, writes Gd (nothing where GD is 0) with the exact result narrowed to 32
bits, and with S = 1 the flags of Table 03.4. -/
def RegisterAluRowsWriteResultAndFlags : Prop :=
  ∀ (f : Alu) (s : State) (c : Nat) (t : Fin 4) (k : BitVec 4) (gd ga gb : BitVec 5) (sf : Bool),
    Writes (f.row c t k gd ga gb sf) s c t k (.alu f gd ga gb sf) fun th => f.effect gd sf (th.rg ga) (th.rg gb) th

/-- R60, R68: ADDI, ANDI, ORI and XORI compute with IMM11, sign-extended by ADDI and zero-extended by the others; CMP and CMPI write the
flags of the difference and nothing else; the immediate shifts shift by AMOUNT. -/
def ImmediateAluRowsAndComparesWriteAsRegisterForms : Prop :=
  ∀ (s : State) (c : Nat) (t : Fin 4) (k : BitVec 4) (gd ga gb amount : BitVec 5) (sf : Bool) (imm : BitVec 11),
    Writes (.addi c t k gd ga sf imm) s c t k (.aluImm .add gd ga sf imm)
      (fun th => Alu.add.effect gd sf (th.rg ga) (imm.signExtend 32) th)
    ∧ Writes (.andi c t k gd ga sf imm) s c t k (.aluImm .and gd ga sf imm)
      (fun th => Alu.and.effect gd sf (th.rg ga) (imm.setWidth 32) th)
    ∧ Writes (.ori c t k gd ga sf imm) s c t k (.aluImm .or gd ga sf imm)
      (fun th => Alu.or.effect gd sf (th.rg ga) (imm.setWidth 32) th)
    ∧ Writes (.xori c t k gd ga sf imm) s c t k (.aluImm .xor gd ga sf imm)
      (fun th => Alu.xor.effect gd sf (th.rg ga) (imm.setWidth 32) th)
    ∧ Writes (.cmp c t k ga gb) s c t k (.cmp ga gb) (fun th => Alu.sub.effect 0 true (th.rg ga) (th.rg gb) th)
    ∧ Writes (.cmpi c t k ga imm) s c t k (.cmpi ga imm)
      (fun th => Alu.sub.effect 0 true (th.rg ga) (imm.signExtend 32) th)
    ∧ Writes (.shli c t k gd ga amount sf) s c t k (.shiftImm 0 gd ga amount sf)
      (fun th => Alu.shl.effect gd sf (th.rg ga) (amount.setWidth 32) th)
    ∧ Writes (.shri c t k gd ga amount sf) s c t k (.shiftImm 1 gd ga amount sf)
      (fun th => Alu.shr.effect gd sf (th.rg ga) (amount.setWidth 32) th)
    ∧ Writes (.sari c t k gd ga amount sf) s c t k (.shiftImm 2 gd ga amount sf)
      (fun th => Alu.sar.effect gd sf (th.rg ga) (amount.setWidth 32) th)
    ∧ Writes (.rori c t k gd ga amount sf) s c t k (.shiftImm 3 gd ga amount sf)
      (fun th => Alu.ror.effect gd sf (th.rg ga) (amount.setWidth 32) th)

/-- R60, R68: the register and the immediate ALU rows, the compares and the immediate shifts write their result and flags. -/
def Obligations.AluRowsWriteResultAndFlags : Prop :=
  RegisterAluRowsWriteResultAndFlags ∧ ImmediateAluRowsAndComparesWriteAsRegisterForms

/-- Byte j of a word. -/
def byteOf (x : Word) (j : Nat) : Nat := x.toNat / 256 ^ j % 256

/-- R69, R70, R80: MOVI, MOVHI, BFI, BFX, CLZ and BPERM write Gd with the value given, bit for bit, and change no flag. -/
def Obligations.MoveAndBitFieldRowsWriteTheirBits : Prop :=
  ∀ (s : State) (c : Nat) (t : Fin 4) (k : BitVec 4) (gd ga gb pos : BitVec 5) (width : BitVec 6) (sgn : Bool) (imm : BitVec 16),
    Writes (.movi c t k gd imm) s c t k (.movi gd imm) (fun th => th.wg gd (BitVec.ofInt 32 imm.toInt))
    ∧ Writes (.movhi c t k gd imm) s c t k (.movhi gd imm)
      (fun th => th.wg gd (BitVec.ofNat 32 (imm.toNat * 2 ^ 16 + (th.rg gd).toNat % 2 ^ 16)))
    ∧ (∃ f : Word → Word → Word,
        (∀ old a i, i < 32 → (f old a).getLsbD i
          = if pos.toNat ≤ i ∧ i < pos.toNat + width.toNat then a.getLsbD (i - pos.toNat) else old.getLsbD i)
        ∧ Writes (.bfi c t k gd ga pos width) s c t k (.bfi gd ga pos width) (fun th => th.wg gd (f (th.rg gd) (th.rg ga))))
    ∧ (∃ f : Word → Word,
        ((Op.bfx gd ga pos width sgn).wf = true → ∀ a i, i < 32 → (f a).getLsbD i
          = if i < width.toNat then a.getLsbD (pos.toNat + i)
            else (sgn && a.getLsbD (pos.toNat + width.toNat - 1)))
        ∧ Writes (.bfx c t k gd ga pos width sgn) s c t k (.bfx gd ga pos width sgn) (fun th => th.wg gd (f (th.rg ga))))
    ∧ (∃ f : Word → Nat,
        (∀ a, f a ≤ 32 ∧ a.toNat < 2 ^ (32 - f a) ∧ (f a < 32 → 2 ^ (31 - f a) ≤ a.toNat))
        ∧ Writes (.clz c t k gd ga) s c t k (.clz gd ga) (fun th => th.wg gd (BitVec.ofNat 32 (f (th.rg ga)))))
    ∧ (∃ f : Word → Word → Word → Word,
        (∀ a old b j, j < 4 → byteOf (f a old b) j
          = let n := b.toNat / 16 ^ j % 16
            if 8 ≤ n then 0 else if n < 4 then byteOf a n else byteOf old (n - 4))
        ∧ Writes (.bperm c t k gd ga gb) s c t k (.bperm gd ga gb) (fun th => th.wg gd (f (th.rg ga) (th.rg gd) (th.rg gb))))

/-! ## Loads and stores -/

/-- The thread with the n-byte number of a load written: to Vd for SIZE 5, otherwise to Gd by Table 03.6. -/
def loaded (rd : BitVec 5) (size : BitVec 3) (n : Nat) (th : Thread) : Thread :=
  match size.toNat with
  | 0 => th.wg rd ((BitVec.ofNat 8 n).signExtend 32)
  | 1 => th.wg rd (BitVec.ofNat 32 n)
  | 2 => th.wg rd ((BitVec.ofNat 16 n).signExtend 32)
  | 3 => th.wg rd (BitVec.ofNat 32 n)
  | 4 => th.wg rd (BitVec.ofNat 32 n)
  | _ => th.wv rd (BitVec.ofNat 512 n)

/-- The bytes of a register, lowest first. -/
def regBytes {n : Nat} (len : Nat) (x : BitVec n) : List Byte := (List.range len).map fun j => BitVec.ofNat 8 (x.toNat / 256 ^ j)

/-- The bytes a store of SIZE moves: Vs whole for SIZE 5, otherwise the low bytes of Gs (R72). -/
def storedBytes (rs : BitVec 5) (size : BitVec 3) (th : Thread) : List Byte :=
  if size = 5 then regBytes 64 (th.rv rs) else regBytes (sizeBytes size) (th.rg rs)

/-- R72, R66: LDR reads the bytes at C.BASE + Ga + IMM5 × size (Ga signed) and LDA those at its generator's address, extend them by Table 03.6 into the
destination register, and change nothing else; LDA with P = 1 post-modifies its generator.
Readings and choices of the model it rests on: log 22. -/
def Obligations.LoadRowsWriteTheDestinationFromScratchpad : Prop :=
  ∀ (s : State) (c : Nat) (t : Fin 4) (k : BitVec 4) (rd ga : BitVec 5) (cr : BitVec 4) (size : BitVec 3) (imm : BitVec 5)
    (ag : BitVec 2) (p : Bool),
    let n := sizeBytes size
    let th := (s.core c).th t.val
    (let op := Op.ldr rd cr ga size imm
     let x := s.seen c t op
     let addr := regAddress (th.rc cr) (th.rg ga) imm size
     s.ready c t k op = true → spadCheck (th.rc cr) permRD addr n (min n 16) = none → x.open_ t.val addr.toNat n false = true →
     Retires (.ldr c t k rd cr ga size imm) s c t
       ((x.noted (wordsOf addr.toNat n)).modTh t.val (loaded rd size (x.number addr.toNat n))))
    ∧ (let op := Op.lda rd ag p size
       let x := s.seen c t op
       let g := th.rag ag
       s.ready c t k op = true → g.illegal p = false → th.agCheck g permRD n (min n 16) = none →
       x.open_ t.val g.address.toNat n false = true →
       Retires (.lda c t k rd ag p size) s c t
         ((x.noted (wordsOf g.address.toNat n)).modTh t.val fun y =>
           loaded rd size (x.number g.address.toNat n) (if p then y.wag ag g.step1 else y)))

/-- R72, R66, R99: STR and STA store the register's bytes at that same address, untag the granules touched, and leave every other byte of
the scratchpad and everything else as it was; STA with P = 1 post-modifies its generator.
Readings and choices of the model it rests on: log 22. -/
def Obligations.StoreRowsChangeOnlyTheirBytes : Prop :=
  ∀ (s : State) (c : Nat) (t : Fin 4) (k : BitVec 4) (rs ga : BitVec 5) (cr : BitVec 4) (size : BitVec 3) (imm : BitVec 5)
    (ag : BitVec 2) (p : Bool),
    let n := sizeBytes size
    let th := (s.core c).th t.val
    (let op := Op.str rs cr ga size imm
     let x := s.seen c t op
     let addr := regAddress (th.rc cr) (th.rg ga) imm size
     s.ready c t k op = true → spadCheck (th.rc cr) permWR addr n (min n 16) = none → x.open_ t.val addr.toNat n true = true →
     ∃ y, Stored x y addr.toNat (storedBytes rs size th) ∧ Retires (.str c t k rs cr ga size imm) s c t y)
    ∧ (let op := Op.sta rs ag p size
       let x := s.seen c t op
       let g := th.rag ag
       s.ready c t k op = true → g.illegal p = false → th.agCheck g permWR n (min n 16) = none →
       x.open_ t.val g.address.toNat n true = true →
       ∃ y, Stored x y g.address.toNat (storedBytes rs size th)
         ∧ Retires (.sta c t k rs ag p size) s c t (y.modTh t.val fun z => if p then z.wag ag g.step1 else z))

/-- The signed or unsigned operand of a MACD SIZE. -/
def macOperand (size : BitVec 2) (n : Nat) : Int :=
  match size.toNat with
  | 0 => (BitVec.ofNat 8 n).toInt
  | 2 => (BitVec.ofNat 16 n).toInt
  | _ => n

/-- One lane of a VMACD: the F32 form fuses one product, the integer forms add exact products modulo 2^32 (R78). -/
def vmacdValue (ty : BitVec 2) (old : Word) (a b : BitVec 512) (i : Nat) : Word :=
  let sb := fun (x : BitVec 512) (j : Nat) => (lane 8 x j).toInt
  match ty.toNat with
  | 0 => ffma old (lane 32 a i) (lane 32 b i)
  | 1 => BitVec.ofInt 32 (old.toInt + (lane 16 a (2 * i)).toInt * (lane 16 b (2 * i)).toInt
      + (lane 16 a (2 * i + 1)).toInt * (lane 16 b (2 * i + 1)).toInt)
  | 2 => BitVec.ofInt 32 (old.toInt + sb a (4 * i) * sb b (4 * i) + sb a (4 * i + 1) * sb b (4 * i + 1)
      + sb a (4 * i + 2) * sb b (4 * i + 2) + sb a (4 * i + 3) * sb b (4 * i + 3))
  | _ => BitVec.ofInt 32 (old.toInt + (lane 8 a (4 * i)).toNat * sb b (4 * i) + (lane 8 a (4 * i + 1)).toNat * sb b (4 * i + 1)
      + (lane 8 a (4 * i + 2)).toNat * sb b (4 * i + 2) + (lane 8 a (4 * i + 3)).toNat * sb b (4 * i + 3))

/-- R71, R78: MACD and VMACD multiply the operands at AG0 and AG1 and accumulate into Gd or the lanes of Vd, from zero with Z = 1; with P = 1
both generators post-modify.
Readings and choices of the model it rests on: log 22. -/
def Obligations.MultiplyAccumulateRowsAccumulate : Prop :=
  ∀ (s : State) (c : Nat) (t : Fin 4) (k : BitVec 4) (d : BitVec 5) (z p : Bool) (size : BitVec 2),
    let th := (s.core c).th t.val
    let a0 := th.rag 0
    let a1 := th.rag 1
    let post := fun (y : Thread) => if p then (y.wag 0 a0.step1).wag 1 a1.step1 else y
    let fits := fun (x : Core) (n : Nat) => a0.illegal p = false ∧ a1.illegal p = false
      ∧ th.agCheck a0 permRD n (min n 16) = none ∧ th.agCheck a1 permRD n (min n 16) = none
      ∧ x.open_ t.val a0.address.toNat n false = true ∧ x.open_ t.val a1.address.toNat n false = true
    (let n := macBytes size
     let op := Op.macd d z p size
     let x := s.seen c t op
     s.ready c t k op = true → fits x n →
     Retires (.macd c t k d z p size) s c t
       (((x.noted (wordsOf a0.address.toNat n)).noted (wordsOf a1.address.toNat n)).modTh t.val fun y =>
         post (y.wg d (BitVec.ofInt 32 ((if z then 0 else (y.rg d).toInt)
           + macOperand size (x.number a0.address.toNat n) * macOperand size (x.number a1.address.toNat n))))))
    ∧ (let op := Op.vmacd d z p size
       let x := s.seen c t op
       s.ready c t k op = true → fits x 64 →
       ∃ r : BitVec 512,
         (∀ i, i < 16 → lane 32 r i = vmacdValue size (if z then 0 else lane 32 (th.rv d) i)
           (BitVec.ofNat 512 (x.number a0.address.toNat 64)) (BitVec.ofNat 512 (x.number a1.address.toNat 64)) i)
         ∧ Retires (.vmacd c t k d z p size) s c t
           (((((x.noted (wordsOf a0.address.toNat 64)).noted (wordsOf a1.address.toNat 64)).modTh t.val fun y =>
             post (y.wv d r))).countFmt (if size = 0 then nanLanes r else 0) 0))

/-! ## Address generators, branches, system values -/

/-- A generator with one field written (Table 03.5); none outside the field's range. -/
def fieldWritten (a : AGen) (field : BitVec 3) (v : Word) : Option AGen :=
  match field.toNat with
  | 0 => if v.toNat ≤ 0x1FFFF then some { a with base := v.setWidth 17 } else none
  | 1 => if v.toNat ≤ 0x1FFFF then some { a with index := v.setWidth 17 } else none
  | 2 => if -0x20000 ≤ v.toInt ∧ v.toInt ≤ 0x1FFFF then some { a with step := v.setWidth 18 } else none
  | 3 => if 1 ≤ v.toNat ∧ v.toNat ≤ 0x20000 then some { a with modulus := v.setWidth 18 } else none
  | 4 => if v.toNat ≤ 2 then some { a with mode := v.setWidth 2 } else none
  | _ => none

/-- The index after a post-modify by d, in bit-reversed mode by e: mod() of R66 in modulo mode, its low 17 bits kept. -/
def postIndex (a : AGen) (d e : Int) : BitVec 17 :=
  if a.mode = 1 then BitVec.ofInt 17 ((a.index.toNat + d).emod a.modulus.toNat)
  else if a.mode = 2 then BitVec.ofInt 17 ((a.index.toNat + e).emod a.modulus.toNat)
  else BitVec.ofInt 17 (a.index.toNat + d)

/-- R65, R66, R67: AGSET writes a field within its range and is an illegal instruction outside it; AGADD post-modifies by its immediate, and
is illegal in modulo mode with MODULUS 0; AGBIND names the C register. -/
def Obligations.GeneratorRowsReadAndWriteFields : Prop :=
  ∀ (s : State) (c : Nat) (t : Fin 4) (k : BitVec 4) (ag : BitVec 2) (g : BitVec 5) (field : BitVec 3) (imm : BitVec 17)
    (cr : BitVec 4),
    let th := (s.core c).th t.val
    let a := th.rag ag
    (∀ a', fieldWritten a field (th.rg g) = some a' →
      Writes (.agset c t k ag g field) s c t k (.agset ag g field) fun y => y.wag ag a')
    ∧ (s.ready c t k (.agset ag g field) = true → fieldWritten a field (th.rg g) = none →
      Raises (.agset c t k ag g field) s c t (s.seen c t (.agset ag g field))
        (illegalAt th.pc (encodeOp k (.agset ag g field))))
    ∧ (a.illegal true = false →
      Writes (.agadd c t k ag imm) s c t k (.agadd ag imm) fun y => y.wag ag { a with index := postIndex a imm.toInt imm.toInt })
    ∧ (s.ready c t k (.agadd ag imm) = true → a.mode = 1 → a.modulus = 0 →
      Raises (.agadd c t k ag imm) s c t (s.seen c t (.agadd ag imm)) (illegalAt th.pc (encodeOp k (.agadd ag imm))))
    ∧ Writes (.agbind c t k ag cr) s c t k (.agbind ag cr) (fun y => y.wag ag { a with cap := some cr })

/-- The thread at a branch's target: PC there, its fetch buffer discarded, not ready for two cycles, progress register clear (R62). -/
def branched (pc : BitVec 17) (th : Thread) : Thread := { th with pc := pc, fbuf := [], bubble := 2, prog := {}, skipBp := false }

/-- R73, R62: B and BL go to PC + 4 × OFF22, BR and BLR to Ga, IFLUSH to the next instruction, each discarding the fetch buffer; BL and BLR
write PC + 4 to G31. BR and BLR raise ALIGN when Ga[1:0] ≠ 0 and then BOUNDS when Ga is above 0x1_FFFF, G31 unwritten. That the target of B
and BL is taken modulo 2^17 is the model's reading (log 19). -/
def BranchRowsGoToTheirTarget : Prop :=
  ∀ (s : State) (c : Nat) (t : Fin 4) (k : BitVec 4) (off : BitVec 22) (ga : BitVec 5) (link : Bool),
    let th := (s.core c).th t.val
    let row := fun (l : Bool) => if l then Instr.blr c t k ga else Instr.br c t k ga
    (s.ready c t k (.b off) = true → Branches (.b c t k off) s c t
      ((s.seen c t (.b off)).modTh t.val (branched (BitVec.ofInt 17 (th.pc.toNat + 4 * off.toInt)))))
    ∧ (s.ready c t k (.bl off) = true → Branches (.bl c t k off) s c t
      ((s.seen c t (.bl off)).modTh t.val fun y =>
        branched (BitVec.ofInt 17 (th.pc.toNat + 4 * off.toInt)) (y.wg 31 ((th.pc + 4).setWidth 32))))
    ∧ (s.ready c t k (.br ga link) = true → (th.rg ga).toNat % 4 = 0 → (th.rg ga).toNat ≤ 0x1FFFF →
      Branches (row link) s c t ((s.seen c t (.br ga link)).modTh t.val fun y =>
        branched ((th.rg ga).setWidth 17) (if link then y.wg 31 ((th.pc + 4).setWidth 32) else y)))
    ∧ (s.ready c t k (.br ga link) = true → (th.rg ga).toNat % 4 ≠ 0 →
      Raises (row link) s c t (s.seen c t (.br ga link))
        { cause := 3, spc := th.pc, sinfo := 5 + 16 * 15, saddr := th.rg ga, scap := th.rc 15 })
    ∧ (s.ready c t k (.br ga link) = true → (th.rg ga).toNat % 4 = 0 → 0x1FFFF < (th.rg ga).toNat →
      Raises (row link) s c t (s.seen c t (.br ga link))
        { cause := 3, spc := th.pc, sinfo := 4 + 16 * 15, saddr := th.rg ga, scap := th.rc 15 })
    ∧ (s.ready c t k .iflush = true →
      Branches (.iflush c t k) s c t ((s.seen c t .iflush).modTh t.val (branched (th.pc + 4))))

/-- The die cycles of core c's die since its trunk powered up (R74). -/
def Sys2Proof.Machine.State.cycles (s : State) (c : Nat) : DWord := (s.die (dieOf c)).cyc

/-- R74: RDSR writes the system value that SR names: the thread, the core, the die's cycle count's low word with its high word latched, the latched
high word, and the low word of the thread's ISSUED count; AGGET writes a field of its generator, STEP sign-extended (the model's reading:
log 19). -/
def RdsrWritesTheSystemValue : Prop :=
  ∀ (s : State) (c : Nat) (t : Fin 4) (k : BitVec 4) (gd : BitVec 5) (sr : BitVec 4) (ag : BitVec 2) (field : BitVec 3),
    let a := ((s.core c).th t.val).rag ag
    Writes (.agget c t k ag gd field) s c t k (.agget ag gd field) (fun y => y.wg gd (match field.toNat with
        | 0 => a.base.setWidth 32
        | 1 => a.index.setWidth 32
        | 2 => BitVec.ofInt 32 a.step.toInt
        | 3 => a.modulus.setWidth 32
        | _ => a.mode.setWidth 32))
    ∧ Writes (.rdsr c t k gd sr) s c t k (.rdsr gd sr) fun th =>
      let x := (s.core c).t
      match sr.toNat with
      | 0 => th.wg gd (BitVec.ofNat 32 t.val)
      | 1 => th.wg gd (BitVec.ofNat 32 c)
      | 2 => { th with cycHi := (s.cycles c >>> 32).setWidth 32 }.wg gd ((s.cycles c).setWidth 32)
      | 3 => th.wg gd th.cycHi
      | _ => th.wg gd ((sget 0 x.cnt (cntPerf t.val)).setWidth 32)

/-- R62, R65, R73, R74: the branches and IFLUSH set the PC, RDSR reads what SR names, and AGGET a generator's field (targets modulo 2^17, and
STEP sign-extended: log 19). -/
def Obligations.BranchAndSystemReadRows : Prop :=
  BranchRowsGoToTheirTarget ∧ RdsrWritesTheSystemValue

/-! ## Vector instructions (R75 to R79) -/

/-- The row of a lane-wise vector function. -/
def Sys2Proof.VFn.row (f : VFn) (c : Nat) (t : Fin 4) (k : BitVec 4) (vd va vb : BitVec 5) (ty : BitVec 3) : Instr :=
  match f with
  | .add => .vadd c t k vd va vb ty | .sub => .vsub c t k vd va vb ty | .mul => .vmul c t k vd va vb ty
  | .fma => .vfma c t k vd va vb ty | .min => .vmin c t k vd va vb ty | .max => .vmax c t k vd va vb ty
  | .and => .vand c t k vd va vb ty | .or => .vor c t k vd va vb ty | .xor => .vxor c t k vd va vb ty
  | .shl => .vshl c t k vd va vb ty | .shr => .vshr c t k vd va vb ty | .sel => .vsel c t k vd va vb ty
  | .abs => .vabs c t k vd va ty | .adds => .vadds c t k vd va vb ty | .subs => .vsubs c t k vd va vb ty

/-- An integer lane of a vector function by exact arithmetic: wrapped, or for VADDS and VSUBS held at the lane's bounds (R75). -/
def vfnIntLane (f : VFn) (w : Nat) (sgn : Bool) (old a b : BitVec w) : BitVec w :=
  let v := fun (x : BitVec w) => if sgn then x.toInt else (x.toNat : Int)
  let hold := fun (x : Int) =>
    let lo : Int := if sgn then -2 ^ (w - 1) else 0
    let hi : Int := if sgn then 2 ^ (w - 1) - 1 else 2 ^ w - 1
    BitVec.ofInt w (max lo (min hi x))
  match f with
  | .add => BitVec.ofInt w (v a + v b)
  | .sub => BitVec.ofInt w (v a - v b)
  | .mul => BitVec.ofInt w (v a * v b)
  | .fma => BitVec.ofInt w (v old + v a * v b)
  | .min => BitVec.ofInt w (min (v a) (v b))
  | .max => BitVec.ofInt w (max (v a) (v b))
  | .and => a &&& b
  | .or => a ||| b
  | .xor => a ^^^ b
  | .shl => if b.toNat < w then BitVec.ofInt w (v a * 2 ^ b.toNat) else 0
  | .shr => if b.toNat < w then BitVec.ofInt w (v a / 2 ^ b.toNat) else if v a < 0 then -1 else 0
  | .sel => (a &&& old) ||| (b &&& ~~~old)
  | .abs => BitVec.ofInt w ((v a).natAbs : Int)
  | .adds => hold (v a + v b)
  | .subs => hold (v a - v b)

/-- R75, R76: a lane-wise vector row writes every lane of Vd: integer lanes by exact arithmetic narrowed to the lane, FP32 lanes by R46 and R47,
VAND, VOR, VXOR and VSEL on bits for every TYPE; nothing else changes but, for FP32 arithmetic, the FMT_NAN count.
Readings and choices of the model it rests on: log 28. -/
def Obligations.VectorLaneRowsWriteEveryLane : Prop :=
  ∀ (f : VFn) (s : State) (c : Nat) (t : Fin 4) (k : BitVec 4) (vd va vb : BitVec 5) (ty : BitVec 3),
    (f = .abs → vb = 0) →
    let op := Op.vop f vd va vb ty
    let th := (s.core c).th t.val
    s.ready c t k op = true →
    ∃ r : BitVec 512,
      (∀ i, i < typeLanes ty → lane (typeWidth ty) r i =
        if ty = 4 ∧ f ∉ [VFn.and, .or, .xor, .sel] then
          (vLaneFp f (lane 32 (th.rv vd) i) (lane 32 (th.rv va) i) (lane 32 (th.rv vb) i)).setWidth _
        else vfnIntLane f (typeWidth ty) (decide (ty ≠ 1)) (lane _ (th.rv vd) i) (lane _ (th.rv va) i) (lane _ (th.rv vb) i))
      ∧ Retires (f.row c t k vd va vb ty) s c t
        (((s.seen c t op).countFmt (if ty = 4 ∧ vfnTensor f then nanLanes r else 0) 0).modTh t.val fun y => y.wv vd r)

/-- The value of a lane by its TYPE: unsigned for UINT8 alone (R75). -/
def laneValue (ty : BitVec 3) (x : BitVec 512) (i : Nat) : Int :=
  if ty = 1 then ((lane (typeWidth ty) x i).toNat : Int) else (lane (typeWidth ty) x i).toInt

/-- The comparison CC of two integers (Table 03.8). -/
def ccHolds (cc : BitVec 3) (a b : Int) : Bool :=
  match cc.toNat with
  | 0 => a == b | 1 => !(a == b) | 2 => decide (a < b) | 3 => decide (a ≤ b) | 4 => decide (a > b) | _ => decide (a ≥ b)

/-- R76, R80: VCMP writes each lane all ones or all zeros by its comparison, with S = 1 setting N when every lane compares true and Z when none
does; VBCAST replicates Ga's low lane bits; VEXT writes a lane to Gd, extended by its type; VINS replaces one lane. -/
def CompareAndLaneMoveRowsWriteLanes : Prop :=
  ∀ (s : State) (c : Nat) (t : Fin 4) (k : BitVec 4) (vd va vb g : BitVec 5) (cc : BitVec 3) (sf : Bool) (ln : BitVec 6)
    (ty : BitVec 3),
    let th := (s.core c).th t.val
    let w := typeWidth ty
    (∃ (r : BitVec 512) (hit : Nat → Bool),
      (∀ i, i < typeLanes ty → lane w r i = if hit i then BitVec.allOnes w else 0)
      ∧ (∀ i, hit i = if ty = 4 then ccFp cc (lane 32 (th.rv va) i) (lane 32 (th.rv vb) i)
          else ccHolds cc (laneValue ty (th.rv va) i) (laneValue ty (th.rv vb) i))
      ∧ Writes (.vcmp c t k vd va vb cc sf ty) s c t k (.vcmp vd va vb cc sf ty) fun y =>
          { y.wv vd r with flags := if sf then (BitVec.ofBoolListLE
              [false, false, (List.range (typeLanes ty)).all fun i => !hit i, (List.range (typeLanes ty)).all hit]) else y.flags })
    ∧ (∃ r : BitVec 512, (∀ i, i < typeLanes ty → lane w r i = (th.rg g).setWidth w)
      ∧ Writes (.vbcast c t k vd g ln ty) s c t k (.vbcast vd g ln ty) fun y => y.wv vd r)
    ∧ Writes (.vext c t k g va ln ty) s c t k (.vext g va ln ty)
      (fun y => y.wg g (BitVec.ofInt 32 (laneValue ty (th.rv va) ln.toNat)))
    ∧ (∃ r : BitVec 512, (∀ i, i < typeLanes ty → lane w r i = if i = ln.toNat then (th.rg g).setWidth w else lane w (th.rv vd) i)
      ∧ Writes (.vins c t k vd g ln ty) s c t k (.vins vd g ln ty) fun y => y.wv vd r)

/-- R77: a reduction writes one value to [31:0] of Vd and zeros above: integer lanes summed modulo 2^32, or the greatest or least of them; FP32
lanes combined in the fixed pairwise tree, each addition rounded, each pair by VMAX or VMIN. -/
def ReductionRowsWriteOneValue : Prop :=
  ∀ (s : State) (c : Nat) (t : Fin 4) (k : BitVec 4) (vd va : BitVec 5) (ty : BitVec 3),
    let v := ((s.core c).th t.val).rv va
    let vals := (List.range (typeLanes ty)).map (laneValue ty v)
    let tree := fun (g : Word → Word → Word) =>
      let a := fun (i : Nat) => g (lane 32 v (2 * i)) (lane 32 v (2 * i + 1))
      let b := fun (i : Nat) => g (a (2 * i)) (a (2 * i + 1))
      g (g (b 0) (b 1)) (g (b 2) (b 3))
    let done := fun (i : Instr) (op : Op) (r : Word) => s.ready c t k op = true →
      Retires i s c t (((s.seen c t op).countFmt (if ty = 4 ∧ isNan32 r then 1 else 0) 0).modTh t.val fun y =>
        y.wv vd (BitVec.ofNat 512 r.toNat))
    (∃ r : Word, (r = if ty = 4 then tree fadd else BitVec.ofInt 32 vals.sum)
      ∧ done (.vredsum c t k vd va ty) (.vred .sum vd va ty) r)
    ∧ (∃ r : Word, (ty = 4 → r = tree fmax) ∧ (ty.toNat < 4 → r.toInt ∈ vals ∧ ∀ x ∈ vals, x ≤ r.toInt)
      ∧ done (.vredmax c t k vd va ty) (.vred .max vd va ty) r)
    ∧ (∃ r : Word, (ty = 4 → r = tree fmin) ∧ (ty.toNat < 4 → r.toInt ∈ vals ∧ ∀ x ∈ vals, r.toInt ≤ x)
      ∧ done (.vredmin c t k vd va ty) (.vred .min vd va ty) r)

/-- R75 to R77: the vector compare, lane moves and reductions write their lanes or value. -/
def Obligations.CompareLaneMoveAndReductionRows : Prop :=
  CompareAndLaneMoveRowsWriteLanes ∧ ReductionRowsWriteOneValue

/-- Register r holds the BS8 block of the sixteen FP32 lanes of a, counting nan and sat (R41, R49, R53): byte k the significand of lane k,
byte 16 the exponent e, zeros above. A NaN, or an infinity with OVF = 1, makes the whole block NaN. Otherwise e is 254 with an infinity, and
without one the exponent of the largest magnitude plus 127, or 0 below that and for zeros; each lane is scaled by 2^(133 − e), rounded and
clamped to ±127, as an infinity is. -/
def toBlock (m : Rm) (ovf : Bool) (a r : BitVec 512) (nan sat : Nat) : Prop :=
  let x := fun (i : Nat) => f32 (lane 32 a i)
  let inf := ∃ i, i < 16 ∧ (x i = .inf true ∨ x i = .inf false)
  let bad := (∃ i, i < 16 ∧ x i = .nan) ∨ (ovf = true ∧ inf)
  (∀ j, 17 ≤ j → j < 64 → lane 8 r j = 0)
  ∧ (bad → lane 8 r 16 = 255 ∧ (∀ i, i < 16 → lane 8 r i = 0) ∧ nan = 1 ∧ sat = 0)
  ∧ (¬ bad → nan = 0 ∧ ∃ e : Nat,
      lane 8 r 16 = BitVec.ofNat 8 e ∧ (inf → e = 254)
      ∧ (¬ inf →
        (∀ i k q, i < 16 → x i = .fin k q → k ≠ 0 → (Nat.log2 k.natAbs : Int) + q + 127 ≤ e)
        ∧ (e ≠ 0 → ∃ i k q, i < 16 ∧ x i = .fin k q ∧ k ≠ 0 ∧ (Nat.log2 k.natAbs : Int) + q + 127 = e))
      ∧ (let whole := fun (i : Nat) => match x i with
          | .fin k q => roundInt m k (q + 133 - e)
          | .inf neg => if neg then -1000 else 1000
          | .nan => 0
         (∀ i, i < 16 → (lane 8 r i).toInt = max (-127) (min 127 (whole i)))
         ∧ sat = ((List.range 16).filter fun i => decide (127 < (whole i).natAbs)).length))

/-- R41, R48, R49, R53, R79: VCVT converts source element by source element into the destination elements that PART names and keeps the others; to
and from BS8 it packs and unpacks one block; FMT_NAN and FMT_SAT count its NaN results and its saturations, and nothing else changes.
Readings and choices of the model it rests on: log 28. -/
def Obligations.VcvtRowConvertsElements : Prop :=
  ∀ (s : State) (c : Nat) (t : Fin 4) (k : BitVec 4) (vd va : BitVec 5) (src dst : BitVec 4) (part : BitVec 2) (rm : BitVec 3)
    (ovf : Bool),
    let op := Op.vcvt vd va src dst part rm ovf
    let old := ((s.core c).th t.val).rv vd
    let a := ((s.core c).th t.val).rv va
    let ws := fmtWidth src.toNat
    let wd := fmtWidth dst.toNat
    let n := 512 / max ws wd
    let m := rmOf rm.toNat
    s.ready c t k op = true →
    ∃ (r : BitVec 512) (nan sat : Nat),
      (dst = 10 → toBlock m ovf a r nan sat)
      ∧ (src = 10 → dst ≠ 10 →
        (∀ i, i < 16 → lane 32 r i = if lane 8 a 16 = 255 then toF32 .nan
          else toF32 (.fin (lane 8 a i).toInt ((lane 8 a 16).toNat - 133)))
        ∧ nan = (if lane 8 a 16 = 255 then 16 else 0) ∧ sat = 0)
      ∧ (src ≠ 10 → dst ≠ 10 →
        (∀ i, i < n →
          let from_ := if wd < ws then i else if ws < wd then part.toNat * n + i else i
          let to_ := if wd < ws then part.toNat * n + i else i
          lane wd r to_ = BitVec.ofNat wd (convElem src.toNat dst.toNat m ovf (lane ws a from_).toNat).code)
        ∧ (∀ j, j < 512 / wd → (if wd < ws then j < part.toNat * n ∨ part.toNat * n + n ≤ j else n ≤ j) →
          lane wd r j = lane wd old j)
        ∧ (let elems := (List.range n).map fun i =>
            convElem src.toNat dst.toNat m ovf (lane ws a (if ws < wd then part.toNat * n + i else i)).toNat
           nan = (elems.filter (·.nan)).length ∧ sat = (elems.filter (·.sat)).length))
      ∧ Retires (.vcvt c t k vd va src dst part rm ovf) s c t
        (((s.seen c t op).countFmt nan sat).modTh t.val fun y => y.wv vd r)

/-! ## Capabilities and save sets (chapter 05) -/

/-- R99, R101: CLD and CST move 16 bytes with the granule's tag, CST leaving every other byte and tag; a bad tag makes CLD raise cause 4;
CMOV and CCLR copy a register, CCLR untagged; CINFO writes the field of Table 05.4 that FIELD names.
Readings and choices of the model it rests on: log 22. -/
def Obligations.CapabilityMoveRowsCarryTags : Prop :=
  ∀ (s : State) (c : Nat) (t : Fin 4) (k cd cs cb : BitVec 4) (ga gd : BitVec 5) (field : BitVec 3),
    let th := (s.core c).th t.val
    let a := (th.rc cb).ubase + (th.rg ga).toNat
    let v := th.rc cs
    (let op := Op.cld cd cb ga
     let x := s.seen c t op
     s.ready c t k op = true → spadCheck (th.rc cb) (permRD ||| permLDC) a 16 16 = none → x.open_ t.val a 16 false = true →
     (sget false x.f.spad.tagBad (a / 16) = false → Retires (.cld c t k cd cb ga) s c t
       ((x.noted (wordsOf a 16)).modTh t.val fun y => y.wc cd ⟨sget false x.f.spad.tags (a / 16), BitVec.ofNat 128 (x.number a 16)⟩))
     ∧ (sget false x.f.spad.tagBad (a / 16) = true → Raises (.cld c t k cd cb ga) s c t (x.noted (wordsOf a 16))
       { cause := 4, spc := th.pc, sinfo := BitVec.ofNat 32 (bankOf a), saddr := BitVec.ofNat 32 a }))
    ∧ (let op := Op.cst cs cb ga
       let x := s.seen c t op
       s.ready c t k op = true → spadCheck (th.rc cb) (if v.tag then permWR ||| permSTC else permWR) a 16 16 = none →
       x.open_ t.val a 16 true = true →
       ∃ y z, Stored x y a (regBytes 16 v.bits) ∧ z = { y with f := { y.f with spad := { y.f.spad with tags := z.f.spad.tags } } }
         ∧ (∀ g, sget false z.f.spad.tags g = if g = a / 16 then v.tag else sget false x.f.spad.tags g)
         ∧ Retires (.cst c t k cs cb ga) s c t z)
    ∧ Writes (.cmov c t k cd cs) s c t k (.cmov cd cs false) (fun y => y.wc cd v)
    ∧ Writes (.cclr c t k cd cs) s c t k (.cmov cd cs true) (fun y => y.wc cd { v with tag := false })
    ∧ Writes (.cinfo c t k gd cs field) s c t k (.cinfo gd cs field) (fun y => y.wg gd (match field.toNat with
        | 0 => BitVec.ofNat 32 v.kind
        | 1 => BitVec.ofNat 32 v.perm.toNat
        | 2 => BitVec.ofNat 32 (v.base % 2 ^ 32)
        | 3 => BitVec.ofNat 32 (v.base / 2 ^ 32)
        | 4 => BitVec.ofNat 32 (v.len % 2 ^ 32)
        | 5 => BitVec.ofNat 32 (v.len / 2 ^ 32)
        | 6 => BitVec.ofNat 32 v.sealWord.toNat
        | _ => if v.tag then 1 else 0))

/-- The capability fault of an instruction: cause 3 with the register and capability that failed (Table 05.8). -/
def capRaise (th : Thread) (reason : Nat) (r : BitVec 4) : FaultRec :=
  { cause := 3, spc := th.pc, sinfo := BitVec.ofNat 32 (reason + 16 * r.toNat), scap := th.rc r }

/-- R102: CNARROW of a tagged, unsealed capability writes one with the same KIND, BASE raised by OFFSET, LENGTH LEN or the rest, and PERM
masked, where that lies within the old range; it raises cause 3 with UNTAGGED, SEALED or NARROW otherwise, CD unwritten. -/
def CnarrowNarrowsOrFaults : Prop :=
  ∀ (s : State) (c : Nat) (t : Fin 4) (k cd cs : BitVec 4) (ga gb : BitVec 5),
    let th := (s.core c).th t.val
    let op := Op.cnarrow cd cs ga gb
    let i := Instr.cnarrow c t k cd cs ga gb
    let v := th.rc cs
    let off := (th.rg ga).toNat
    let len := (th.rg (ga + 1)).toNat
    let stop := v.ubase + v.len
    let low := v.ubase + off
    let fits := low < kindLimit v.kind ∧ low ≤ stop ∧ (len ≠ 0 → low + len ≤ stop)
    s.ready c t k op = true →
    (v.tag = true → v.sealWord = 0 → fits → ∃ r : Cap,
      r.tag = true ∧ r.kind = v.kind ∧ r.base = v.base + off ∧ r.len = (if len = 0 then stop - low else len)
      ∧ (∀ j, j < 12 → r.perm.getLsbD j = (v.perm.getLsbD j && (th.rg gb).getLsbD j)) ∧ r.sealWord = 0
      ∧ Retires i s c t ((s.seen c t op).modTh t.val fun y => y.wc cd r))
    ∧ (v.tag = false → Raises i s c t (s.seen c t op) (capRaise th 1 cs))
    ∧ (v.tag = true → v.sealWord ≠ 0 → Raises i s c t (s.seen c t op) (capRaise th 6 cs))
    ∧ (v.tag = true → v.sealWord = 0 → ¬ fits → Raises i s c t (s.seen c t op) (capRaise th 10 cs))

/-- R103: with a SYS capability that permits it and holds the slot, CSTAMP seals an unsealed capability under the slot's generation,
CREDEEM unseals one of the current generation, CREVOKE raises the generation by one; CTEST sets Z alone, and never faults. -/
def SealRowsUseSlotsAndGenerations : Prop :=
  ∀ (s : State) (c : Nat) (t : Fin 4) (k cd cs ca : BitVec 4) (ga : BitVec 5),
    let th := (s.core c).th t.val
    let v := th.rc cs
    let slot := (th.rg ga).toNat % 32
    let gen := fun (n : Nat) => (sget 0 (s.core c).t.gen n).toNat
    let holds := fun (perm : BitVec 12) (n : Nat) =>
      capUse (th.rc ca) 9 perm = none ∧ n ≠ 0 ∧ (th.rc ca).ubase ≤ n ∧ n < (th.rc ca).ubase + (th.rc ca).len
    (v.tag = true → v.sealWord = 0 → holds permSTAMP slot → ∃ r : Cap,
      r.tag = true ∧ r.bits.toNat / 2 ^ 16 = v.bits.toNat / 2 ^ 16 ∧ r.sealWord.toNat = slot * 2 ^ 11 + gen slot
      ∧ Writes (.cstamp c t k cd cs ca ga) s c t k (.cstamp cd cs ca ga) fun y => y.wc cd r)
    ∧ (v.tag = true → v.sealWord ≠ 0 → holds permREDEEM v.sealSlot → v.sealGen = gen v.sealSlot → ∃ r : Cap,
      r.tag = true ∧ r.bits.toNat / 2 ^ 16 = v.bits.toNat / 2 ^ 16 ∧ r.sealWord = 0
      ∧ Writes (.credeem c t k cd cs ca) s c t k (.credeem cd cs ca) fun y => y.wc cd r)
    ∧ (s.ready c t k (.credeem cd cs ca) = true → v.tag = true → v.sealWord ≠ 0 → holds permREDEEM v.sealSlot →
      v.sealGen ≠ gen v.sealSlot →
      Raises (.credeem c t k cd cs ca) s c t (s.seen c t (.credeem cd cs ca)) (capRaise th 11 cs))
    ∧ (∃ z : Bool, (z = true ↔ v.tag = true ∧ v.sealWord ≠ 0 ∧ v.sealSlot = slot ∧ v.sealGen = gen slot)
      ∧ Writes (.ctest c t k cs ga) s c t k (.ctest cs ga) fun y =>
          { y with flags := BitVec.ofBoolListLE [y.flags.getLsbD 0, y.flags.getLsbD 1, z, y.flags.getLsbD 3] })
    ∧ (let op := Op.crevoke ca ga
       let x := s.seen c t op
       s.ready c t k op = true → holds permREVOKE slot →
       ∃ y, y = { x with t := { x.t with gen := y.t.gen } }
         ∧ (∀ n, (sget 0 y.t.gen n).toNat = if n = slot then (gen n + 1) % 2 ^ 11 else gen n)
         ∧ Retires (.crevoke c t k ca ga) s c t y)

/-- R101 to R103: CNARROW narrows or faults, and the seal rows use slots and generations.
Readings and choices of the model it rests on: log 25. -/
def Obligations.NarrowAndSealRows : Prop :=
  CnarrowNarrowsOrFaults ∧ SealRowsUseSlotsAndGenerations

/-- Whether capability a gives no more than b: untagged, or of b's KIND, with PERM among b's and its range within b's. -/
def Sys2Proof.Machine.Cap.within (a b : Cap) : Prop :=
  a.tag = true → b.tag = true ∧ a.kind = b.kind ∧ (∀ j, a.perm.getLsbD j = true → b.perm.getLsbD j = true)
    ∧ b.ubase ≤ a.ubase ∧ a.ubase + a.len ≤ b.ubase + b.len

/-- R96, R101, R102, R103: no capability instruction widens authority: every capability that a thread holds after CMOV, CCLR, CNARROW,
CSTAMP or CREDEEM that raises no cause gives no more than one it held before. -/
def Obligations.CapabilityRowsNeverWidenAuthority : Prop :=
  ∀ (i : Instr) (s u : State) (c : Nat) (t : Fin 4) (k : BitVec 4) (op : Op), rowOp i = some (c, t, k, op) →
    (match op with
      | .cmov .. => True
      | .cnarrow .. => True
      | .cstamp .. => True
      | .credeem .. => True
      | _ => False) →
    s.ready c t k op = true → exec i s = .next u → (u.core c).f.exc = (s.core c).f.exc → ∀ r : BitVec 4,
      ∃ r', (((u.core c).th t.val).rc r).within (((s.core c).th t.val).rc r')

/-- R107, R116: TRAP raises cause 7 with its number, the next instruction's PC and CS, counted as issued; at L2 it is an illegal
instruction. -/
def TrapRowRaisesCause7 : Prop :=
  ∀ (s : State) (c : Nat) (t : Fin 4) (k : BitVec 4) (n : BitVec 8) (cs : BitVec 4),
    let th := (s.core c).th t.val
    let op := Op.trap n cs
    s.ready c t k op = true →
    ((t ≠ 0 ∨ (s.core c).f.exc.level ≠ 2) → Raises (.trap c t k n cs) s c t ((s.seen c t op).countIssue t.val th.pc 0)
      { cause := 7, spc := th.pc + 4, sinfo := BitVec.ofNat 32 n.toNat, scap := th.rc cs })
    ∧ (t = 0 → (s.core c).f.exc.level = 2 → Raises (.trap c t k n cs) s c t (s.seen c t op)
      { cause := 2, spc := th.pc, sinfo := encodeOp k op })

/-- What an entry saves of its cause and of its target thread (R109). -/
def savedBy (v : SaveSet) (f : FaultRec) (th : Thread) (t : Nat) (from_ : BitVec 2) : Prop :=
  v.occ = true ∧ v.spc = f.spc ∧ v.sflags = th.flags ∧ v.cause = f.cause ∧ v.thread.toNat = t ∧ v.fromLevel = from_ ∧ v.async = false
  ∧ v.sinfo = f.sinfo ∧ v.saddr = f.saddr ∧ v.sprog = f.prog ∧ v.scode = th.rc 15 ∧ v.scap = f.scap
  ∧ v.scapIdx = 0 ∧ v.scapWb = false ∧ v.dispose = false

/-- The thread at a vector: its PC there, C15 from a slot, everything else of its registers as before. -/
def vectored (y x : Thread) (pc : Nat) (code : Cap) : Prop :=
  y.pc.toNat = pc ∧ y.rc 15 = code ∧ y.prog = {} ∧ y.g = x.g ∧ y.v = x.v ∧ y.ag = x.ag ∧ y.flags = x.flags
  ∧ ∀ r : BitVec 4, r ≠ 15 → y.rc r = x.rc r

/-- R91, R107 to R110, R112: a synchronous cause of threads 1 to 3 enters L1 when its set is free and no L2 entry is due: the cause and the
thread saved with thread 0's own place, FAULT_HELD set, thread 0 at vector 16 × (cause − 1) with slot 0's capability; otherwise it waits. A cause of thread 0
enters L2 at that vector plus 0x100 with slot 1's; with the L2 set occupied it is a double fault, and no register changes. -/
def CauseEntersItsLevel : Prop :=
  ∀ (x : Core) (t : Fin 4) (f : FaultRec),
    let y := x.raise t.val f
    (t ≠ 0 → x.l1Open = true → x.anyWaiting = false → (x.th 0).stepping = false →
      savedBy y.f.exc.l1 f (x.th t.val) t.val 0 ∧ y.f.exc.l1.sretPc = (x.th 0).pc ∧ y.f.exc.l1.sretFlags = (x.th 0).flags
      ∧ y.f.exc.l1.sretProg = (x.th 0).prog ∧ y.f.exc.l1.sretCode = (x.th 0).rc 15
      ∧ y.f.exc = { x.f.exc with l1 := y.f.exc.l1, level := 1 }
      ∧ vectored (y.th 0) (x.th 0) (16 * (f.cause.toNat - 1)) (sget {} x.f.exc.slots 0)
      ∧ y.th t.val = { x.th t.val with faultHeld := true, saveWait := none, prog := {} }
      ∧ ∀ v, v ≠ 0 → v ≠ t.val → y.th v = x.th v)
    ∧ (t ≠ 0 → (x.l1Open = false ∨ x.anyWaiting = true) →
      y.f.exc = x.f.exc ∧ y.th t.val = { x.th t.val with saveWait := some f } ∧ ∀ v, v ≠ t.val → y.th v = x.th v)
    ∧ (t = 0 → x.f.exc.l2.occ = false →
      savedBy y.f.exc.l2 f (x.th 0) 0 x.f.exc.level ∧ y.f.exc = { x.f.exc with l2 := y.f.exc.l2, level := 2 }
      ∧ vectored (y.th 0) (x.th 0) (0x100 + 16 * (f.cause.toNat - 1)) (sget {} x.f.exc.slots 1)
      ∧ ∀ v, v ≠ 0 → y.th v = x.th v)
    ∧ (t = 0 → x.f.exc.l2.occ = true → y.f.exc = { x.f.exc with l2double := true } ∧ ∀ v, y.th v = x.th v)

/-- R107, R109 to R112, R116: TRAP raises cause 7, and a cause enters its level with its save set written.
Readings and choices of the model it rests on: log 25. -/
def Obligations.TrapAndCauseEntry : Prop :=
  TrapRowRaisesCause7 ∧ CauseEntersItsLevel

/-- The save set that a move of thread t with bit SET names: at L1 the L1 set, at L2 the L1 set with SET = 1 and the L2 set with SET = 0. -/
def namedSet (x : Core) (t : Nat) (set : Bool) : Option Bool :=
  if t ≠ 0 then none
  else if x.f.exc.level = 1 then (if set then none else some false)
  else if x.f.exc.level = 2 then some (!set)
  else none

/-- The save set of a core: L2 or L1. -/
def saveSetOf (x : Core) (two : Bool) : SaveSet := if two then x.f.exc.l2 else x.f.exc.l1

/-- R113, R116: SSRD, SSWR, SCRD and SCWR read and write the fields of Table 05.9 of the set their level and SET name, read-only fields
keeping their value; with no such set they are illegal instructions. -/
def Obligations.SaveSetMoveRowsReadAndWriteFields : Prop :=
  ∀ (s : State) (c : Nat) (t : Fin 4) (k field : BitVec 4) (g : BitVec 5) (cf : BitVec 2) (cr : BitVec 4) (set : Bool) (two : Bool),
    let th := (s.core c).th t.val
    let v := saveSetOf (s.core c) two
    let w := th.rg g
    let rows : List (Instr × Op) := [(.ssrd c t k field g set, .ssrd field g set), (.sswr c t k field g set, .sswr field g set),
      (.scrd c t k cf cr set, .scrd cf cr set), (.scwr c t k cf cr set, .scwr cf cr set)]
    let put := fun (x : Core) (n : SaveSet) => ({ x with f := { x.f with exc :=
      if two then { x.f.exc with l2 := n } else { x.f.exc with l1 := n } } } : Core)
    (s.core c).f.exc.level.toNat ≤ 2 →
    (namedSet (s.core c) t.val set = none → ∀ p ∈ rows, s.ready c t k p.2 = true →
      Raises p.1 s c t (s.seen c t p.2) { cause := 2, spc := th.pc, sinfo := encodeOp k p.2 })
    ∧ (namedSet (s.core c) t.val set = some two →
      Writes (.ssrd c t k field g set) s c t k (.ssrd field g set) (fun y => y.wg g (match field.toNat with
        | 0 => BitVec.ofNat 32 v.spc.toNat
        | 1 => BitVec.ofNat 32 v.sflags.toNat
        | 2 => BitVec.ofNat 32 (v.cause.toNat + v.thread.toNat * 2 ^ 4 + v.fromLevel.toNat * 2 ^ 6 + (if v.async then 2 ^ 8 else 0))
        | 3 => v.sinfo
        | 4 => v.saddr
        | 5 => BitVec.ofNat 32 (v.sprog.progress.toNat + v.sprog.unit.toNat * 2 ^ 16 + (if v.sprog.valid then 2 ^ 31 else 0))
        | 6 => BitVec.ofNat 32 (v.scapIdx.toNat + (if v.scapWb then 2 ^ 4 else 0) + (if v.dispose then 2 ^ 5 else 0))
        | 7 => BitVec.ofNat 32 v.sretPc.toNat
        | 8 => BitVec.ofNat 32 v.sretFlags.toNat
        | _ => BitVec.ofNat 32 (v.sretProg.progress.toNat + v.sretProg.unit.toNat * 2 ^ 16 + (if v.sretProg.valid then 2 ^ 31 else 0))))
      ∧ (let op := Op.sswr field g set
         s.ready c t k op = true → ∃ n : SaveSet, Retires (.sswr c t k field g set) s c t (put (s.seen c t op) n)
         ∧ n = (match field.toNat with
          | 0 => { v with spc := BitVec.ofNat 17 (w.toNat / 4 * 4) }
          | 1 => { v with sflags := BitVec.ofNat 4 w.toNat }
          | 5 => { v with sprog := ⟨BitVec.ofNat 16 w.toNat, BitVec.ofNat 4 (w.toNat / 2 ^ 16), w.msb⟩ }
          | 6 => { v with scapIdx := BitVec.ofNat 4 w.toNat, scapWb := w.getLsbD 4, dispose := w.getLsbD 5 }
          | 7 => { v with sretPc := BitVec.ofNat 17 (w.toNat / 4 * 4) }
          | 8 => { v with sretFlags := BitVec.ofNat 4 w.toNat }
          | 9 => { v with sretProg := ⟨BitVec.ofNat 16 w.toNat, BitVec.ofNat 4 (w.toNat / 2 ^ 16), w.msb⟩ }
          | _ => v))
      ∧ Writes (.scrd c t k cf cr set) s c t k (.scrd cf cr set) (fun y =>
          y.wc cr (if cf = 0 then v.scode else if cf = 1 then v.scap else v.sretCode))
      ∧ (let op := Op.scwr cf cr set
         s.ready c t k op = true → Retires (.scwr c t k cf cr set) s c t (put (s.seen c t op)
          (if cf = 0 then { v with scode := th.rc cr } else if cf = 1 then { v with scap := th.rc cr }
           else { v with sretCode := th.rc cr }))))

/-- A thread restored from a save set: its place, flags, progress and code capability, nothing else of its registers but the capability
register SCAP is written back to. -/
def restored (y x : Thread) (pc : BitVec 17) (flags : BitVec 4) (prog : Prog) (code : Cap) (wb : Option (BitVec 4 × Cap)) : Prop :=
  y.pc = pc ∧ y.flags = flags ∧ y.prog = prog ∧ y.g = x.g ∧ y.v = x.v ∧ y.ag = x.ag
  ∧ ∀ r : BitVec 4, y.rc r = (match wb with
    | some (i, v) => if r = i then v else if r = 15 then code else x.rc r
    | none => if r = 15 then code else x.rc r)

/-- R117, R118: RFE through a SYS capability from which the set's capabilities derive frees the set of its level and restores the target
thread, SCAP with SCAP_WB = 1; for a target other than thread 0 it restores thread 0 as well, and L0, and with DISPOSE = 1 disables the
target instead; otherwise the saved level returns. At L0, where threads 1 to 3 always are, RFE is an illegal instruction, and a failed check restores nothing.
Readings and choices of the model it rests on: log 25. -/
def Obligations.RfeRestoresTheSavedThread : Prop :=
  ∀ (s : State) (c : Nat) (t : Fin 4) (k csys : BitVec 4) (two : Bool),
    let x := s.core c
    let th := x.th 0
    let v := saveSetOf x two
    let op := Op.rfe csys
    let sys := th.rc csys
    let free := if two then { v with occ := false } else { v with occ := false }
    (s.ready c t k op = true → t ≠ 0 ∨ x.f.exc.level = 0 →
      Raises (.rfe c t k csys) s c t (s.seen c t op) { cause := 2, spc := (x.th t.val).pc, sinfo := encodeOp k op })
    ∧ (s.ready c 0 k op = true → x.f.exc.level = (if two then 2 else 1) → capUse sys 9 0 = none → derivable sys v.scode = true →
      (v.scapWb = true → derivable sys v.scap = true) → (v.thread ≠ 0 → derivable sys v.sretCode = true) →
      ∃ y, Branches (.rfe c 0 k csys) s c 0 y
        ∧ y.f.exc = { x.f.exc with
            l1 := if two then x.f.exc.l1 else free, l2 := if two then free else x.f.exc.l2,
            level := if v.thread = 0 then v.fromLevel else 0 }
        ∧ (v.thread = 0 → restored (y.th 0) th v.spc v.sflags v.sprog v.scode
            (if v.scapWb then some (v.scapIdx, v.scap) else none))
        ∧ (v.thread ≠ 0 → restored (y.th 0) th v.sretPc v.sretFlags v.sretProg v.sretCode none)
        ∧ (v.thread ≠ 0 → v.dispose = false → (y.th v.thread.toNat).faultHeld = false
            ∧ restored (y.th v.thread.toNat) (x.th v.thread.toNat) v.spc v.sflags v.sprog v.scode
              (if v.scapWb then some (v.scapIdx, v.scap) else none))
        ∧ (v.thread ≠ 0 → v.dispose = true → y.f.tc.en.getLsbD v.thread.toNat = false))
    ∧ (s.ready c 0 k op = true → x.f.exc.level = (if two then 2 else 1) → capUse sys 9 0 = none → derivable sys v.scode = false →
      Raises (.rfe c 0 k csys) s c 0 (s.seen c 0 op) (capRaise th 8 csys))

/-! ## The matrix unit (chapters 07 and 08) -/

/-- R148 to R150, R162 to R164: with the unit drained, TCFG gives its target the configuration named, zeroed unless it had it already, and
TFREE zeroes the tiles and accumulators its masks name; MSTAT copies the status word SEL names; with no MMA pending on them, ACLR clears
ACC_OVF and AZERO zeroes the accumulators of its mask, AGET reads and APUT writes 16 elements, AGET of a POISON accumulator raising
cause 8. A unit that is not drained makes TCFG wait. -/
def Obligations.TileAndAccumulatorRowsConfigureAndMove : Prop :=
  ∀ (s : State) (c : Nat) (t : Fin 4) (k target fmt : BitVec 4) (shape : BitVec 1) (layout : BitVec 3) (tmask : BitVec 8)
    (amask sel : BitVec 4) (g : BitVec 5) (acc pair : BitVec 2),
    let mx := fun (x y : Core) (wait : Bool) => y = { x with f := { x.f with mx := { x.f.mx with
      tiles := y.f.mx.tiles, accs := y.f.mx.accs, tcfgWait := wait } } }
    let free := fun (x : Core) (m : BitVec 4) => x.mxBlocked = false ∧ ∀ i, i < 4 → m.getLsbD i = true → x.accPending i = false
    (let op := Op.tcfg target fmt shape layout
     let i := Instr.tcfg c t k target fmt shape layout
     let x := s.seen c t op
     s.ready c t k op = true →
     (x.drained = true → ∃ y, Retires i s c t y ∧ mx x y false
      ∧ (∀ j, y.tile j = if j = target.toNat ∧ j ≤ 7 then
          (if (x.tile j).fmt = fmt ∧ (x.tile j).shape = decide (shape = 1) ∧ (x.tile j).layout = layout then x.tile j
           else { fmt := fmt, shape := decide (shape = 1), layout := layout })
         else x.tile j)
      ∧ (∀ j, y.acc j = if j + 8 = target.toNat then (if (x.acc j).fmt = fmt then x.acc j else { fmt := fmt }) else x.acc j))
     ∧ (x.drained = false → Completes i s fun u => OnlyCore s u c
       ∧ u.core c = { x with f := { x.f with mx := { x.f.mx with tcfgWait := true } } }))
    ∧ (let op := Op.tfree tmask amask
       let x := s.seen c t op
       s.ready c t k op = true → x.drained = true → ∃ y, Retires (.tfree c t k tmask amask) s c t y ∧ mx x y false
        ∧ (∀ j, j < 8 → y.tile j = if tmask.getLsbD j then
            { fmt := (x.tile j).fmt, shape := (x.tile j).shape, layout := (x.tile j).layout } else x.tile j)
        ∧ (∀ j, j < 4 → y.acc j = if amask.getLsbD j then { fmt := (x.acc j).fmt } else x.acc j))
    ∧ ((s.seen c t (.mstat g sel)).mxBlocked = false →
      Writes (.mstat c t k g sel) s c t k (.mstat g sel) fun y => y.wg g ((s.seen c t (.mstat g sel)).mstat sel.toNat))
    ∧ (let op := Op.aclr amask
       let x := s.seen c t op
       s.ready c t k op = true → free x amask → ∃ y, Retires (.aclr c t k amask) s c t y ∧ mx x y x.f.mx.tcfgWait
        ∧ (∀ j, y.tile j = x.tile j)
        ∧ ∀ j, j < 4 → y.acc j = if amask.getLsbD j then { x.acc j with ovf := false } else x.acc j)
    ∧ (let op := Op.azero amask
       let x := s.seen c t op
       s.ready c t k op = true → free x amask → ∃ y, Retires (.azero c t k amask) s c t y ∧ mx x y x.f.mx.tcfgWait
        ∧ (∀ j, y.tile j = x.tile j)
        ∧ ∀ j, j < 4 → y.acc j = if amask.getLsbD j then { fmt := (x.acc j).fmt } else x.acc j)
    ∧ (let op := Op.aget g acc pair
       let x := s.seen c t op
       (x.mxBlocked = false → x.accPending acc.toNat = false → (x.acc acc.toNat).poison = false → ∃ r : BitVec 512,
        (∀ j, j < 16 → lane 32 r j = lane 32 (x.acc acc.toNat).data (16 * pair.toNat + j))
        ∧ Writes (.aget c t k g acc pair) s c t k op fun y => y.wv g r)
       ∧ (s.ready c t k op = true → x.mxBlocked = false → x.accPending acc.toNat = false → (x.acc acc.toNat).poison = true →
        Raises (.aget c t k g acc pair) s c t x
          { cause := 8, spc := ((s.core c).th t.val).pc, sinfo := BitVec.ofNat 32 (6 + 16 * (8 + acc.toNat)) }))
    ∧ (let op := Op.aput g acc pair
       let x := s.seen c t op
       s.ready c t k op = true → x.mxBlocked = false → x.accPending acc.toNat = false →
       ∃ y, Retires (.aput c t k g acc pair) s c t y ∧ mx x y x.f.mx.tcfgWait ∧ (∀ j, y.tile j = x.tile j)
        ∧ (∀ j, j ≠ acc.toNat → y.acc j = x.acc j)
        ∧ y.acc acc.toNat = { x.acc acc.toNat with data := (y.acc acc.toNat).data, inUse := true }
        ∧ ∀ j, j < 64 → lane 32 (y.acc acc.toNat).data j = if j / 16 = pair.toNat then lane 32 (((s.core c).th t.val).rv g) (j % 16)
            else lane 32 (x.acc acc.toNat).data j)

/-- R151 to R154: TLD loads the rows of its tile that are left, and TST stores them, row after row through a generator, with every check of
every row passed, in one step where their thread is not stepping; TLD marks the tile in use and whole; TST stores each row's bytes and untags
their granules; both post-modify once a row with P = 1. Nothing else of the core changes but what the reads note of correctable words, and
lines held for a conflict that TST discards.
Readings and choices of the model it rests on: log 27. -/
def Obligations.TileLoadAndStoreRowsMoveEveryRow : Prop :=
  ∀ (s : State) (c : Nat) (t : Fin 4) (k : BitVec 4) (tile : BitVec 3) (ag : BitVec 2) (p : Bool),
    let th := (s.core c).th t.val
    let g := fun (n : Nat) => if p then iter AGen.step1 n (th.rag ag) else th.rag ag
    let start := if th.prog.valid then th.prog.progress.toNat else 0
    let fits := fun (x : Core) (perm : BitVec 12) (write : Bool) (m : Nat) =>
      let w := x.tile tile.toNat
      x.mxBlocked = false ∧ x.f.mv = none ∧ th.stepping = false ∧ start < w.rows ∧ m = w.rows - start
      ∧ ∀ r, r < m → (g r).illegal p = false ∧ th.agCheck (g r) perm w.rowBytes w.rowAlign = none
        ∧ x.open_ t.val (g r).address.toNat w.rowBytes write = true
    (let op := Op.tld tile ag p
     let x := s.seen c t op
     let w := x.tile tile.toNat
     ∀ m, s.ready c t k op = true → fits x permRD false m →
      (∀ j ∈ x.f.mx.queue, j.started = false → j.ta ≠ tile ∧ j.tb ≠ tile ∧ (j.sp ≠ 0 → j.tm ≠ tile)) →
      ∃ y, (∀ i, y.tile i = if i = tile.toNat then { (List.range m).foldl (fun (w : Tile) r =>
            w.loadRow (start + r) (readBytes x.f.spad.mem (g r).address.toNat w.rowBytes)) w with inUse := true, part := none }
          else x.tile i)
        ∧ y.th t.val = (if p then th.wag ag (g m) else th) ∧ (∀ v, v ≠ t.val → y.th v = x.th v)
        ∧ y.f.spad = x.f.spad.touch ((List.range m).flatMap fun r => wordsOf (g r).address.toNat w.rowBytes)
        ∧ y = { x with f := { x.f with thr := y.f.thr, spad := y.f.spad, mx := { x.f.mx with tiles := y.f.mx.tiles } } }
        ∧ Retires (.tld c t k tile ag p) s c t y)
    ∧ (let op := Op.tst tile ag p
       let x := s.seen c t op
       let w := x.tile tile.toNat
       ∀ m, s.ready c t k op = true → fits x permWR true m → w.err = [] →
       ∃ y, (∀ b, sget 0 y.f.spad.mem b = sget 0 ((List.range m).foldl (fun mem r =>
            writeBytes mem (g r).address.toNat (w.storeRow (start + r))) x.f.spad.mem) b)
        ∧ (∀ q r, r < m → q ∈ granulesOf (g r).address.toNat w.rowBytes → sget false y.f.spad.tags q = false)
        ∧ (∀ q, (∀ r, r < m → q ∉ granulesOf (g r).address.toNat w.rowBytes) →
          sget false y.f.spad.tags q = sget false x.f.spad.tags q)
        ∧ y.th t.val = (if p then th.wag ag (g m) else th) ∧ (∀ v, v ≠ t.val → y.th v = x.th v)
        ∧ y = { x with f := { x.f with thr := y.f.thr, spad := y.f.spad, conf := y.f.conf } }
        ∧ Retires (.tst c t k tile ag p) s c t y)

/-- R156 to R158, R168, R169, R174, R178, R179, R431: each MMA form whose checks pass, with a free place in the queue, is accepted: it joins
the queue, CHECK_N counts it, the counters of Table 08.6 count a sparse form; a sampled one takes its checker's free buffer. A failing check
raises cause 8, its reason and target those of the first check that fails.
Readings and choices of the model it rests on: log 27. -/
def Obligations.MmaRowsAreAcceptedAndSampled : Prop :=
  ∀ (s : State) (c : Nat) (t : Fin 4) (k : BitVec 4) (acc : BitVec 2) (ta tb tm : BitVec 3) (z : Bool) (sp : Fin 4),
    let i := match sp.val with
      | 0 => Instr.mma c t k acc ta tb z tm
      | 1 => Instr.mma24 c t k acc ta tb z tm
      | 2 => Instr.mma14 c t k acc ta tb z tm
      | _ => Instr.mmaBitmap c t k acc ta tb z tm
    let op := Op.mma acc ta tb z (BitVec.ofNat 2 sp.val) tm
    let x := s.seen c t op
    let a := x.tile ta.toNat
    let b := x.tile tb.toNat
    let m := x.tile tm.toNat
    let bad := if sp = 0 then denseCheck a b (x.acc acc.toNat) acc.toNat ta.toNat tb.toNat
      else sparseCheck a b m (x.acc acc.toNat) (x.acc (acc.toNat + 1)) acc.toNat ta.toNat tb.toNat tm.toNat sp.val
    let n := x.f.mx.n
    let sampled := x.t.checkEn && decide (n % 2 ^ x.t.checkS.toNat = n / (64 * 2 ^ x.t.checkS.toNat) % 2 ^ x.t.checkS.toNat)
    let job : MmaJob := { acc := acc, ta := ta, tb := tb, tm := tm, z := z, sp := BitVec.ofNat 2 sp.val, n := n, sampled := sampled }
    let counts := fun (y : Core) => 
      y = { x with t := { x.t with cnt := y.t.cnt }
                   f := { x.f with mx := { x.f.mx with queue := x.f.mx.queue ++ [job], n := n + 1, ccnt := y.f.mx.ccnt } } }
      ∧ (∀ j, sget 0 y.t.cnt j = sget 0 x.t.cnt j + (if sp = 3 then (if j = cntSp 0 then 1 else if j = cntSp 1 then
          BitVec.ofNat 64 (max (bitmapQ m a.k) 1) else 0) else if sp = 0 then 0 else if j = cntSp 2 then 1 else 0))
      ∧ ∀ j, sget 0 y.f.mx.ccnt j = sget 0 x.f.mx.ccnt j + if sampled = true ∧ j = 0 then 1 else 0
    s.ready c t k op = true → x.mxBlocked = false → x.f.mx.queue.length < 2 →
    (bad = none → sampled = false → ∃ y, counts y ∧ Retires i s c t y)
    ∧ (bad = none → sampled = true → (s.core (checkerOf c)).f.mx.check = none → ∃ (y : Core) (v : State), counts y ∧ Issued s v c t true y
      ∧ exec i s = .next (v.setCore (checkerOf c) { v.core (checkerOf c) with f := { (v.core (checkerOf c)).f with mx :=
          { (v.core (checkerOf c)).f.mx with check := some { origin := c, job := job } } } }))
    ∧ (bad = none → sampled = true → (s.core (checkerOf c)).f.mx.check.isSome = true →
      Completes i s fun u => OnlyCore s u c ∧ u.core c = s.now c)
    ∧ (∀ r g o, bad = some (r, g, o) → Raises i s c t x
      { cause := 8, spc := ((s.core c).th t.val).pc, sinfo := BitVec.ofNat 32 (r + 16 * g + if o then 256 else 0) })

/-! ## Routing and delta gating (chapters 08 and 09) -/

/-- R188: VROUTE selects at most TOPK distinct candidates, by score descending and number ascending, and every candidate it leaves out ranks
below all that it selects. -/
def SelectionTakesTheHighestScores : Prop :=
  ∀ (sp : Sparsity) (scores : List Word),
    let sel := sp.select scores
    let above := fun (a b : Nat × Word) =>
      (f32 b.2).lt (f32 a.2) = true ∨ ((f32 a.2).lt (f32 b.2) = false ∧ a.1 < b.1)
    sel.length ≤ sp.topk.toNat ∧ sel.Pairwise above
    ∧ (∀ p ∈ sel, p.1 < sp.experts.toNat ∧ p.2 = scores.getD p.1 0 ∧ sp.valid p.1 = true ∧ isNan32 p.2 = false
      ∧ (sp.minEn = true → isNan32 sp.thresh = false ∧ (f32 p.2).lt (f32 sp.thresh) = false))
    ∧ ∀ e, e < sp.experts.toNat → sp.cand e (scores.getD e 0) = true → (e, scores.getD e 0) ∉ sel →
      sel.length = sp.topk.toNat ∧ ∀ p ∈ sel, above p (e, scores.getD e 0)

/-- The header of a token message (Table 08.3). -/
def headerOf (expert rank kind item token score : Nat) : List Byte :=
  bytesOfNat 8 (expert + rank * 2 ^ 6 + kind * 2 ^ 8 + item * 2 ^ 10 + token * 2 ^ 16 + score * 2 ^ 32)

/-- R189 to R192, R197: VROUTE, its thread not stepping, of an item that is not live skips all its tokens; of one token of a live item, with
every message accepted, it sends a ROUTE message with header, score and payload to the endpoint of each expert selected, in rank order, then with END = 1 an END
message with its count to every valid expert; the generators post-modify with P = 1. -/
def VrouteRowSendsTheSelectedTokens : Prop :=
  ∀ (s : State) (c : Nat) (t : Fin 4) (k : BitVec 4) (gn gb : BitVec 5) (cc : BitVec 4) (fin p : Bool),
    let op := Op.vroute gn gb cc fin p
    let x := s.seen c t op
    let th := (s.core c).th t.val
    let sp := x.f.sp
    let n := (th.rg gn).toNat
    let item := (th.rg gb).toNat / 2 ^ 16 % 64
    let base := (th.rg gb).toNat % 2 ^ 16
    let a0 := th.rag 0
    let a1 := th.rag 1
    let post := fun (m : Nat) => if p then (th.wag 0 (iter AGen.step1 m a0)).wag 1 (iter AGen.step1 m a1) else th
    s.ready c t k op = true → x.f.run = none → th.prog.valid = false → th.stepping = false → 1 ≤ n → n ≤ 8192 → x.vrouteCap (th.rc cc) = none →
    (sp.live.getLsbD item = false → ∃ y, Retires (.vroute c t k gn gb cc fin p) s c t y
      ∧ y.th t.val = post n ∧ (∀ v, v ≠ t.val → y.th v = x.th v)
      ∧ y = { x with f := { x.f with thr := y.f.thr }, t := { x.t with cnt := y.t.cnt } }
      ∧ ∀ j, sget 0 y.t.cnt j = sget 0 x.t.cnt j + if j = cntSp 16 then BitVec.ofNat 64 n else 0)
    ∧ (let ns := 4 * sp.experts.toNat
       let np := 8 * sp.payload.toNat
       let sel := sp.select (wordsOfBytes sp.experts.toNat (readBytes x.f.spad.mem a0.address.toNat ns))
       let payload := readBytes x.f.spad.mem a1.address.toNat np
       let msgs := (sel.zipIdx.map fun q => (sp.chanOf q.1.1, headerOf q.1.1 q.2 0 item base q.1.2.toNat ++ payload))
         ++ (if fin then sp.targets.map fun e =>
           (sp.chanOf e, headerOf e 0 1 item base (if e ∈ sel.map (·.1) then 1 else 0)) else [])
       sp.live.getLsbD item = true → n = 1 → 1 ≤ sp.experts.toNat →
       a0.illegal p = false → th.agCheck a0 permRD ns 16 = none → x.open_ t.val a0.address.toNat ns false = true →
       (np ≠ 0 → a1.illegal p = false ∧ th.agCheck a1 permRD np 8 = none ∧ x.open_ t.val a1.address.toNat np false = true) →
       x.f.ch.pool.length + msgs.length ≤ 16 →
       (∀ m ∈ msgs, (x.chOut m.1).refusal = none ∧ (x.unacked m.1).length + (msgs.filter fun q => q.1 == m.1).length ≤ 8) →
       ∃ y, Retires (.vroute c t k gn gb cc fin p) s c t y
        ∧ y.th t.val = post 1 ∧ (∀ v, v ≠ t.val → y.th v = x.th v)
        ∧ (∃ new, y.f.ch.pool = x.f.ch.pool ++ new ∧ new.map (fun m => (m.ep.toNat, m.data)) = msgs
          ∧ ∀ m ∈ new, m.sig = none ∧ m.sent = false ∧ m.held = false ∧ m.thread.toNat = t.val)
        ∧ (∀ e, (y.chOut e).seqNext = (x.chOut e).seqNext + BitVec.ofNat 8 (msgs.filter fun q => q.1 == e).length)
        ∧ y.f.spad = (x.f.spad.touch (wordsOf a0.address.toNat ns)).touch (wordsOf a1.address.toNat np)
        ∧ y = { x with t := { x.t with cnt := y.t.cnt }
                       f := { x.f with thr := y.f.thr, spad := y.f.spad,
                                       ch := { x.f.ch with pool := y.f.ch.pool, poolNext := y.f.ch.poolNext, out := y.f.ch.out } } }
        ∧ ∀ j, sget 0 y.t.cnt j = sget 0 x.t.cnt j + (if j = cntSp 8 then 1 else if j = cntSp 9 then BitVec.ofNat 64 msgs.length
            else if j = cntSp 10 then (if sel = [] then 1 else 0) else 0))

/-- R188 to R193: the selection takes the highest scores, and VROUTE sends the selected tokens.
Readings and choices of the model it rests on: log 29. -/
def Obligations.VrouteSelectsAndSends : Prop :=
  SelectionTakesTheHighestScores ∧ VrouteRowSendsTheSelectedTokens

/-- The integer a lane of a delta TYPE spells (Table 09.2). -/
def dlValue (ty w n : Nat) : Int := if ty = 1 then (n : Int) else (BitVec.ofNat w n).toInt

/-- R210: in each integer lane the difference from the reference passes where its magnitude exceeds THR; what passes is held to the lane's
signed range, written as the delta and added to the reference; what does not leaves the reference and a delta of zero. A FP32 lane passes
where its difference exceeds THR or either operand is NaN, and the reference takes the lane itself. -/
def DeltaLanesPassAboveTheThreshold : Prop :=
  ∀ (thr : Word) (ty a r : Nat),
    let q := dlLane ty thr a r
    (ty < 3 → a < 2 ^ dlWidth ty → r < 2 ^ dlWidth ty →
      let w := dlWidth ty
      let d := dlValue ty w a - dlValue ty w r
      let top : Int := 2 ^ (w - 1)
      (q.2.2.1 = true ↔ thr.toNat % 2 ^ 16 < d.natAbs)
      ∧ (q.2.2.1 = false → q.1 = r ∧ q.2.1 = 0 ∧ q.2.2.2 = false)
      ∧ (q.2.2.1 = true → ∃ e : Int, e = max (-top) (min (top - 1) d) ∧ (BitVec.ofNat w q.2.1).toInt = e ∧ q.2.1 < 2 ^ w
        ∧ dlValue ty w q.1 = dlValue ty w r + e ∧ (q.2.2.2 = true ↔ d ≠ e)))
    ∧ (ty = 4 →
      let xa : Word := BitVec.ofNat 32 a
      let xr : Word := BitVec.ofNat 32 r
      (isNan32 xa = true ∨ isNan32 xr = true → q.2.2.1 = true ∧ q.1 = a)
      ∧ (q.2.2.1 = true → q.1 = a) ∧ (q.2.2.1 = false → q.1 = r ∧ q.2.1 = 0))

/-- R207: DLFRAME of an enabled layer that no VDELTA, running or stopped, is in progress on copies the running counts to the snapshot and zeroes them, makes the last frame's
kind LAST_KEY, and starts a key frame where Ga[0] asks or the interval ends, otherwise a delta frame one on; Gd tells whether it is a key
frame. A layer that is not enabled is an illegal instruction. -/
def DlframeRowStartsAFrame : Prop :=
  ∀ (s : State) (c : Nat) (t : Fin 4) (k layer : BitVec 4) (gd ga : BitVec 5),
    let op := Op.dlframe layer gd ga
    let x := s.seen c t op
    let v := x.dl layer.toNat
    let th := (s.core c).th t.val
    let pos := if (th.rg ga).getLsbD 0 = true ∨ v.pos = v.keyInt - 1 then 0 else v.pos + 1
    s.ready c t k op = true →
    (v.en = true → (∀ r n, x.f.run = some r → r.op ≠ .vdelta layer n) → ∃ y, Retires (.dlframe c t k layer gd ga) s c t y
      ∧ y.dl layer.toNat = { v with snap := v.run, run := [], lastKey := v.keyNow, keyNow := decide (pos = 0), pos := pos }
      ∧ (∀ l, l ≠ layer.toNat → y.dl l = x.dl l)
      ∧ y.th t.val = th.wg gd (if pos = 0 then 1 else 0) ∧ (∀ u, u ≠ t.val → y.th u = x.th u)
      ∧ y = { x with f := { x.f with thr := y.f.thr, dl := { x.f.dl with layers := y.f.dl.layers } } })
    ∧ (v.en = false → Raises (.dlframe c t k layer gd ga) s c t x { cause := 2, spc := th.pc, sinfo := encodeOp k op })

/-- R209 to R212, R224: VDELTA, its thread not stepping, of one block of an enabled layer: in a key frame the block at AG0 becomes the reference at AG1; in a delta
frame the deltas go to AG2, the new reference to AG1 where a lane passed, and the block's map bit to AG3; the running counts count the
block, its map bit and the lanes passed and clamped, and each generator used post-modifies. -/
def VdeltaRowGatesABlock : Prop :=
  ∀ (s : State) (c : Nat) (t : Fin 4) (k layer : BitVec 4) (gn : BitVec 5),
    let op := Op.vdelta layer gn
    let i := Instr.vdelta c t k layer gn
    let x := s.seen c t op
    let v := x.dl layer.toNat
    let th := (s.core c).th t.val
    let g := fun (j : BitVec 2) => th.rag j
    let addr := fun (j : BitVec 2) => (g j).address.toNat
    let fits := fun (j : BitVec 2) (perm : BitVec 12) (n : Nat) =>
      (g j).illegal true = false ∧ th.agCheck (g j) perm n n = none
    let open_ := fun (j : BitVec 2) (n : Nat) (write : Bool) => x.open_ t.val (addr j) n write = true
    let bs := fun (j : BitVec 2) => readBytes x.f.spad.mem (addr j) 64
    let rest := fun (y : Core) => (∀ u, u ≠ t.val → y.th u = x.th u) ∧ (∀ l, l ≠ layer.toNat → y.dl l = x.dl l)
      ∧ y = { x with f := { x.f with thr := y.f.thr, spad := y.f.spad,
                                     conf := y.f.conf, dl := { x.f.dl with layers := y.f.dl.layers } } }
    let count := fun (n : Nat) (w : Word) => if n = 0 then w else satAdd w n
    let counts := fun (y : Core) (nz pass clamp : Nat) => y.dl layer.toNat = { v with run := (y.dl layer.toNat).run }
      ∧ ∀ j, sget 0 (y.dl layer.toNat).run j = count (if j = 0 then 1 else if j = 1 then nz else if j = 2 then pass
          else if j = 3 then clamp else 0) (sget 0 v.run j)
    s.ready c t k op = true → x.f.run = none → th.prog.valid = false → th.stepping = false → th.rg gn = 1 → v.en = true →
    fits 0 permRD 64 → fits 1 (permRD ||| permWR) 64 → open_ 0 64 false → open_ 1 64 true →
    (v.keyNow = true → ∃ y, Retires i s c t y ∧ rest y ∧ counts y 0 0 0
      ∧ y.th t.val = (th.wag 0 (g 0).step1).wag 1 (g 1).step1
      ∧ ∀ b, sget 0 y.f.spad.mem b = sget 0 (writeBytes x.f.spad.mem (addr 1) (bs 0)) b)
    ∧ (v.keyNow = false → open_ 1 64 false → fits 2 permWR 64 → open_ 2 64 true → fits 3 (permRD ||| permWR) 1 → open_ 3 1 true →
      ∀ ref delta pass clamp, (ref, delta, pass, clamp) = dlBlock v.type.toNat v.thr (bs 0) (bs 1) →
      ∃ y, Retires i s c t y ∧ rest y ∧ counts y (if pass = 0 then 0 else 1) pass clamp
      ∧ y.th t.val = (((th.wag 0 (g 0).step1).wag 1 (g 1).step1).wag 2 (g 2).step1).wag 3 (g 3).step1
      ∧ ∀ b, sget 0 y.f.spad.mem b = sget 0
          (let m := writeBytes x.f.spad.mem (addr 2) delta
           writeBytes (if pass = 0 then m else writeBytes m (addr 1) ref) (addr 3) [if pass = 0 then 0 else 1]) b)

/-- R204 to R215, R224: lanes pass above the threshold, DLFRAME starts a frame and VDELTA gates a block.
Readings and choices of the model it rests on: log 30. -/
def Obligations.DeltaFrameRows : Prop :=
  DeltaLanesPassAboveTheThreshold ∧ DlframeRowStartsAFrame ∧ VdeltaRowGatesABlock

/-! ## Stands (chapter 10) -/

/-- A queued release of thread t behind the writes it waits for (R135). -/
def Sys2Proof.Machine.Core.released (x : Core) (t : Nat) (target : Option Nat) (act : RelAct) : Thread :=
  { x.th t with relq := (x.th t).relq ++ [x.releaseOf t target act] }

/-- R234, R236, R243, R252: in a core in stand mode CTXSW makes its switch pending, TSEND sends the low bytes of Va as a token of the current
context through a port with credit, taking one unit, at once or with REL as a release, and TEND ends the firing of thread 1; TSTAT copies
the register SEL names. -/
def StandRowsSwitchSendAndEnd : Prop :=
  ∀ (s : State) (c : Nat) (t : Fin 4) (k : BitVec 4) (ctx disp : BitVec 2) (port : BitVec 3) (va gd : BitVec 5) (len sel : BitVec 4)
    (rel : Bool),
    (let op := Op.ctxsw ctx disp
     let x := s.seen c t op
     s.ready c t k op = true → t.val ≤ 1 → x.f.st.mode = true → x.f.st.ctxValid.getLsbD ctx.toNat = true → x.f.st.swPend = false →
     Retires (.ctxsw c t k ctx disp) s c t
       { x with f := { x.f with st := { x.f.st with swPend := true, swCtx := ctx, swDisp := disp } } })
    ∧ (let op := Op.tsend port va len rel
       let x := s.seen c t op
       let p := x.tport port.toNat
       let data := regBytes (8 * len.toNat) (((s.core c).th t.val).rv va)
       let pkt := x.packetTo c p.tgt.toNat false data.length (.token port p.queue x.f.st.curCtx data)
       s.ready c t k op = true → t.val ≤ 1 → (t = 1 → x.f.st.mode = true) → p.en = true → p.bal ≠ 0 →
       (rel = true → (x.th t.val).relq.length < 4) →
       ∃ y, Retires (.tsend c t k port va len rel) s c t y
        ∧ y.tport port.toNat = { p with bal := p.bal - 1 } ∧ (∀ q, q ≠ port.toNat → y.tport q = x.tport q)
        ∧ (∀ j, sget 0 y.t.cnt j = sget 0 x.t.cnt j + if j = cntStand 1 then 1 else 0)
        ∧ y = { x with t := { x.t with cnt := y.t.cnt, stallCnt := 0, outq := if rel then x.t.outq else x.t.outq ++ [pkt] }
                       f := { x.f with thr := y.f.thr, st := { x.f.st with tport := y.f.st.tport } } }
        ∧ (∀ v, v ≠ t.val → y.th v = x.th v)
        ∧ y.th t.val = if rel then x.released t.val (some p.tgt.toNat) (.pkt pkt) else x.th t.val)
    ∧ ((s.core c).f.st.mode = true → ((s.core c).th 1).firing = true →
      Writes (.tend c 1 k) s c 1 k .tend fun y => { y with firing := false })
    ∧ Writes (.tstat c t k gd sel) s c t k (.tstat gd sel) (fun y => y.wg gd (match sel.toNat with
        | 0 => (s.core c).f.st.ctl
        | n + 1 => if n < 4 then ((s.core c).tq n).occ else BitVec.ofNat 32 ((s.core c).tport (n - 4)).bal.toNat))

/-- What a stand's START, STOP and ABORT do (R253): RUN on its cores, and its run begins, or completes with status 0x11. -/
def Sys2Proof.Machine.State.standAsked (s : State) (ask n : Nat) : State :=
  if (s.stand n).loaded = false then s
  else if ask = 0 then (if s.standFenced n then s else s.startRun n 0)
  else if ask = 1 ∨ (s.stand n).run = false then s.setRun n false
  else s.endRun n 0x11 0 0 0

/-- R253: through a STAND capability with CTL, TDONE records its code in LAST_DONE and completes the run of the core's own stand, which the
capability must cover, and STCTL asks for START, STOP or ABORT of the stand at its BASE. -/
def StandRequestRowsActOnTheStand : Prop :=
  ∀ (s : State) (c : Nat) (t : Fin 4) (k cs : BitVec 4) (ga : BitVec 5) (n : Fin 3),
    let th := (s.core c).th t.val
    let cap := th.rc cs
    let id := (s.core c).f.st.id.toNat
    let code : BitVec 8 := BitVec.ofNat 8 (th.rg ga).toNat
    capUse cap 7 permCTL = none → 1 ≤ cap.len →
    (let op := Op.tdone cs ga
     let x := s.seen c t op
     s.ready c t k op = true → cap.ubase ≤ id → id < cap.ubase + cap.len →
     ∃ v, Issued s v c t true { x with f := { x.f with st := { x.f.st with doneCode := code, doneValid := true } } }
       ∧ exec (.tdone c t k cs ga) s = .next (v.endRun id 0x10 code.toNat 0 0))
    ∧ (let op := Op.stctl cs (BitVec.ofNat 2 n.val)
       let i := match n.val with
        | 0 => Instr.stctlStart c t k cs
        | 1 => Instr.stctlStop c t k cs
        | _ => Instr.stctlAbort c t k cs
       s.ready c t k op = true → ∃ v, Issued s v c t true (s.seen c t op)
        ∧ exec i s = .next (v.standAsked n.val cap.ubase))

/-- R234, R236, R243, R252, R253: the stand instructions switch, send, end, read and act on the stand.
Readings and choices of the model it rests on: log 31. -/
def Obligations.StandInstructionRows : Prop :=
  StandRowsSwitchSendAndEnd ∧ StandRequestRowsActOnTheStand

/-! ## Channels and counters (chapter 11), remote writes and debug requests -/

/-- y is x with one message or signal more in the send pool, under the next number of outbound half i, and for a release one entry more
in thread t's release queue; all else as in x (R262, R263, R267). -/
def pooled (x y : Core) (t i : Nat) (data : List Byte) (sig : Option Word) (rel : Bool) : Prop :=
  y.f.ch.pool = x.f.ch.pool ++ [{ id := x.f.ch.poolNext, ep := BitVec.ofNat 5 i, seq := (x.chOut i).seqNext, data := data, sig := sig,
                                  thread := BitVec.ofNat 2 t, held := rel }]
  ∧ y.f.ch.poolNext = x.f.ch.poolNext + 1
  ∧ (∀ e, y.chOut e = if e = i then { x.chOut i with seqNext := (x.chOut i).seqNext + 1 } else x.chOut e)
  ∧ y.th t = (if rel then x.released t (x.chOut i).target (.pool x.f.ch.poolNext) else x.th t) ∧ (∀ v, v ≠ t → y.th v = x.th v)
  ∧ y = { x with f := { x.f with thr := y.f.thr, ch := { x.f.ch with pool := y.f.ch.pool, poolNext := y.f.ch.poolNext,
                                                                     out := y.f.ch.out } } }

/-- Whether thread t's message on outbound half i is taken: the half enabled without an error, fewer than 8 unacknowledged, a pool entry and
for a release a queue entry free (R261, R262, R136). -/
def taken (x : Core) (t i : Nat) (rel : Bool) : Prop :=
  (x.chOut i).en = true ∧ (x.chOut i).errRej = false ∧ (x.chOut i).errClr = false ∧ (x.chOut i).errUn = false
  ∧ (x.unacked i).length < 8 ∧ x.f.ch.pool.length < 16 ∧ (rel = true → (x.th t).relq.length < 4)

/-- R260 to R263, R273: MPUT fills the staging buffer; SEND through a CHAN capability puts the first 8 × LEN staged bytes into the send pool
under the half's next number, with REL behind a release; CINC queues its increment behind a release, of a local counter or as a signal;
a half that is disabled, in error, or bound to a flow that is closed makes SEND raise cause 5 (R261, R374, R375). -/
def SendRowsPutMessagesIntoThePool : Prop :=
  ∀ (s : State) (c : Nat) (t : Fin 4) (k cs len idx : BitVec 4) (ga gb r : BitVec 5) (rel imm size : Bool),
    let th := (s.core c).th t.val
    let cap := th.rc cs
    let g := (th.rg ga).toNat
    let i := cap.ubase + g
    let n : Word := if imm then BitVec.ofNat 32 gb.toNat else th.rg gb
    Writes (.mput c t k size r idx) s c t k (.mput size r idx) (fun y =>
      { y with stag := if size then y.rv r else setLane 32 y.stag idx.toNat (y.rg r) })
    ∧ (let op := Op.send cs ga len rel
       let x := s.seen c t op
       s.ready c t k op = true → capUse cap 3 permSEND = none → g < cap.len →
       let flowClosed := (x.chOut i).namesAny (s.env c).closed
       (taken x t.val i rel → flowClosed = false → ∃ y, pooled x y t.val i (regBytes (8 * len.toNat) th.stag) none rel ∧ Retires (.send c t k cs ga len rel) s c t y)
       ∧ (∀ e, ((x.chOut i).en = false ∧ e = 1) ∨ ((x.chOut i).en = true ∧ (x.chOut i).errRej = true ∧ e = 3)
          ∨ ((x.chOut i).refusal = none ∧ flowClosed = true ∧ e = 3) →
          Raises (.send c t k cs ga len rel) s c t x { cause := 5, spc := th.pc, sinfo := BitVec.ofNat 32 (e + 16 * i) }))
    ∧ (let op := Op.cinc cs ga gb imm
       let x := s.seen c t op
       s.ready c t k op = true → g < cap.len →
       (capUse cap 3 permSEND = none → taken x t.val i true →
         ∃ y, pooled x y t.val i [] (some n) true ∧ Retires (.cinc c t k cs ga gb imm) s c t y)
       ∧ (capUse cap 4 permSEND = none → (x.th t.val).relq.length < 4 → Retires (.cinc c t k cs ga gb imm) s c t
          (x.modTh t.val fun _ => x.released t.val none (.kadd (BitVec.ofNat 6 i) n))))

/-- R265, R272, R275, R280: RECV takes the oldest message of an enabled inbound half into Vd with its length in Gd, and owes a RESUME after a
gap; CWAIT goes on when its counter has reached its value and leaves the core as it is before; CRD reads a counter's low word, latching
its high word, or the latched word; CHSTAT reads a half's status word. -/
def ReceiveAndCounterRowsReadTheirHalf : Prop :=
  ∀ (s : State) (c : Nat) (t : Fin 4) (k cs : BitVec 4) (ga gb vd gd : BitVec 5) (wide hi side : Bool),
    let th := (s.core c).th t.val
    let cap := th.rc cs
    let g := (th.rg ga).toNat
    let i := cap.ubase + g
    g < cap.len →
    (let op := Op.recv cs ga vd gd
     let x := s.seen c t op
     let h := x.chIn i
     ∀ m rest, s.ready c t k op = true → capUse cap 3 permRECV = none → h.en = true → h.q = m :: rest →
      (let a := h.qbase.toNat * 512 + 64 * m.slot.toNat
       let due := h.gap && !h.resumeSent
       x.open_ t.val a m.len false = true → ∃ y, Retires (.recv c t k cs ga vd gd) s c t y
        ∧ y.th t.val = (th.wv vd (BitVec.ofNat 512 (x.number a m.len))).wg gd (BitVec.ofNat 32 m.len)
        ∧ (∀ v, v ≠ t.val → y.th v = x.th v)
        ∧ (∀ e, y.chIn e = if e = i then { h with q := rest, resumeSent := h.resumeSent || due, resumeDue := h.resumeDue || due }
            else x.chIn e)
        ∧ y.f.spad = x.f.spad.touch (wordsOf a m.len)
        ∧ y = { x with f := { x.f with thr := y.f.thr, spad := y.f.spad, ch := { x.f.ch with inn := y.f.ch.inn } } }))
    ∧ (let op := Op.cwait cs ga gb wide
       let x := s.seen c t op
       let goal := (th.rg gb).toNat + if wide then 2 ^ 32 * (th.rg (gb + 1)).toNat else 0
       s.ready c t k op = true → capUse cap 4 permRECV = none →
       (goal ≤ (x.k i).val.toNat → Retires (.cwait c t k cs ga gb wide) s c t x)
       ∧ ((x.k i).val.toNat < goal → Completes (.cwait c t k cs ga gb wide) s fun u => OnlyCore s u c ∧ u.core c = s.now c))
    ∧ (capUse cap 4 permRD = none → Writes (.crd c t k cs ga gd hi) s c t k (.crd cs ga gd hi) fun y =>
        let v := ((s.core c).k i).val.toNat
        if hi then y.wg gd y.kHi else { y with kHi := BitVec.ofNat 32 (v / 2 ^ 32) }.wg gd (BitVec.ofNat 32 v))
    ∧ (capUse cap 3 (if side then permRECV else permSEND) = none →
      Writes (.chstat c t k cs ga gd side) s c t k (.chstat cs ga gd side) fun y =>
        y.wg gd (if side then (s.core c).inStat i else (s.core c).outStat i))

/-- R260 to R265, R273 to R275, R280: MPUT and SEND put messages into the pool; RECV, CINC, CWAIT, CRD and CHSTAT act on their half or counter.
Readings and choices of the model it rests on: log 33. -/
def Obligations.ChannelAndCounterRows : Prop :=
  SendRowsPutMessagesIntoThePool ∧ ReceiveAndCounterRowsReadTheirHalf

/-- R138 to R140, R480: SEND through an RSPAD capability with credit, room and an aligned range in bounds sends a remote write of the staged
bytes, plain or zero-run encoded, takes its bytes from the credit entry and notes it outstanding; through a DBG capability it queues the
debug request staged, and a pool entry for it, with REL held by a release.
Readings and choices of the model it rests on: log 25. -/
def Obligations.RemoteWriteAndDebugRequestRowsSend : Prop :=
  ∀ (s : State) (c : Nat) (t : Fin 4) (k cs len : BitVec 4) (ga : BitVec 5) (rel : Bool),
    let op := Op.send cs ga len rel
    let x := s.seen c t op
    let th := (s.core c).th t.val
    let cap := th.rc cs
    let n := 8 * len.toNat
    let data := regBytes n th.stag
    (∀ e, s.ready c t k op = true →
      let g := (th.rg ga).toNat
      let off := cap.ubase + g
      let tgt := cap.base / 2 ^ 30 % 2 ^ 18
      let win := cap.base / 2 ^ 26 % 2 ^ 4
      let zr := x.f.sp.zrOut.getLsbD e
      let wide := x.f.sp.zrOut.getLsbD (16 + e)
      let enc := zrEncode (if wide then 2 else 1) data
      let sent := if zr then enc.1 else data
      let pkt := x.packetTo c tgt false sent.length
        (.rwrite x.f.win.rwNext (BitVec.ofNat 4 win) (BitVec.ofNat 17 off) sent (if zr then some wide else none))
      capUse cap 2 permWR = none → g + n ≤ cap.len → off % 8 = 0 → x.creditFor tgt win = some e →
      (zr = true → n = 64 ∧ off % 64 = 0) → n ≤ (x.ocred e).bal.toNat → x.f.win.rwOut.length < 32 →
      (rel = true → (x.th t.val).relq.length < 4) →
      ∃ y, Retires (.remoteWrite c t k cs ga len rel) s c t y
        ∧ (∀ j, y.ocred j = if j = e then { x.ocred e with bal := BitVec.ofNat 18 ((x.ocred e).bal.toNat - n) } else x.ocred j)
        ∧ y.f.win.rwOut = x.f.win.rwOut ++ [{ id := x.f.win.rwNext, thread := BitVec.ofNat 2 t.val, entry := BitVec.ofNat 4 e, tgt := tgt }]
        ∧ y.f.win.rwNext = x.f.win.rwNext + 1
        ∧ y.t.outq = (if rel then x.t.outq else x.t.outq ++ [pkt])
        ∧ (y.th t.val).relq.length = (x.th t.val).relq.length + (if rel then 1 else 0)
        ∧ (∀ r, (y.th t.val).relq.getLast? = some r → rel = true → r.act = .pkt pkt)
        ∧ (∀ v, v ≠ t.val → y.th v = x.th v) ∧ { y.th t.val with relq := th.relq } = th
        ∧ (∀ j, sget 0 y.t.cnt j = sget 0 x.t.cnt j + (if zr = false then 0 else if j = cntSp 3 then 1
            else if j = cntSp 4 then (if enc.2 = 0 then 1 else 0) else if j = cntSp 5 then BitVec.ofNat 64 sent.length else 0))
        ∧ y = { x with t := { x.t with outq := y.t.outq, cnt := y.t.cnt }
                       f := { x.f with thr := y.f.thr, win := { x.f.win with
                         ocred := y.f.win.ocred, rwOut := y.f.win.rwOut, rwNext := y.f.win.rwNext } } })
    ∧ (let q := regBytes 16 th.stag
       let tgt := natOfBytes (q.take 4)
       let offset := natOfBytes ((q.drop 4).take 2)
       let value := natOfBytes ((q.drop 8).take 4)
       ∀ write : Bool, s.ready c t k op = true → capUse cap 8 (if write then permWR else permRD) = none → len = 2 →
        coreOk tgt = true → cap.ubase ≤ groveOf tgt → groveOf tgt < cap.ubase + cap.len →
        (write = true → offset = 0x2000 → cap.perm &&& permCTL ≠ 0) → x.f.dbg.replyEn = true →
        offset % 4 = 0 → 0x2000 ≤ offset → q.getD 6 0 = (if write then 1 else 0) → q.getD 7 0 = 0 → (q.drop 12) = [0, 0, 0, 0] →
        x.f.dbg.reqs.length < 4 → x.f.ch.pool.length < 16 → (rel = true → (x.th t.val).relq.length < 4) →
        ∃ y, Retires (.debugRequest c t k cs ga len rel) s c t y
        ∧ y.th t.val = (if rel then x.released t.val none (.pool x.f.ch.poolNext) else x.th t.val)
        ∧ (∀ v, v ≠ t.val → y.th v = x.th v)
        ∧ y = { x with f := { x.f with
          thr := y.f.thr
          ch := { x.f.ch with
            poolNext := x.f.ch.poolNext + 1
            pool := x.f.ch.pool ++ [{ id := x.f.ch.poolNext, thread := BitVec.ofNat 2 t.val, sent := true, dbg := true,
                                      held := rel }] }
          dbg := { x.f.dbg with
            replyN := x.f.dbg.replyN + 1
            reqs := x.f.dbg.reqs ++ [{ n := x.f.dbg.replyN, target := tgt, offset := offset, write := write,
                                       value := BitVec.ofNat 32 value }] } } })

/-! ## Streams (chapter 13) -/

/-- y is x with stream i replaced and thread t's registers those given; all else as in x. -/
def streamed (x y : Core) (i : Nat) (v : Stream) (t : Nat) (th : Thread) : Prop :=
  (∀ j, y.str j = if j = i then v else x.str j) ∧ (∀ u, y.th u = if u = t then th else x.th u)
  ∧ y = { x with f := { x.f with str := y.f.str, thr := y.f.thr } }

/-- R313, R314, R317 to R319, R322, R324: SOPEN opens a closed stream by its descriptor when its checks pass; SNEXT of an open read stream
returns the slot of its next landed chunk, of a write stream the next free slot, having freed or committed the slot before, and at the
end 0xFFFF_FFFF with the stream DONE; SCLOSE closes a quiet stream; SRESUME opens a halted one again, every unanswered chunk from FAULT_CHUNK
on to be issued again whole, in order, as far as it had been issued; SSTAT copies a register. A stream of
another thread gives its cause 6, reason 5.
Readings and choices of the model it rests on: log 32. -/
def Obligations.StreamRowsOpenReturnAndClose : Prop :=
  ∀ (s : State) (c : Nat) (t : Fin 4) (k : BitVec 4) (stream sel : BitVec 2) (cm cr : BitVec 4) (ga gd : BitVec 5),
    let th := (s.core c).th t.val
    let i := stream.toNat
    let v := (s.core c).str i
    let mine := t = 0 ∨ v.owner.toNat = t.val
    let w := v.settle t.val
    (let op := Op.sopen stream cm cr ga
     s.ready c t k op = true → (s.core c).sopenCheck (s.env c) th i cm cr ga = none →
     ∃ y, streamed (s.seen c t op) y i
       { st := 1, owner := BitVec.ofNat 2 t.val, cm := th.rc cm, cr := th.rc cr
         off := (th.rg ga).toNat + 2 ^ 32 * ((th.rg (ga + 1)).toNat % 2 ^ 16), inner := (th.rg (ga + 1)).toNat / 2 ^ 16
         outer := (th.rg (ga + 2)).toNat % 2 ^ 24, chunk := (th.rg (ga + 2)).toNat / 2 ^ 24 % 2 ^ 7, dir := (th.rg (ga + 2)).msb
         total := (th.rg (ga + 3)).toNat % 2 ^ 24, slots := (th.rg (ga + 3)).toNat / 2 ^ 24 % 2 ^ 6
         resumable := (th.rg (ga + 3)).getLsbD 30 } t.val th
       ∧ Retires (.sopen c t k stream cm cr ga) s c t y)
    ∧ (let op := Op.snext stream gd
       let i' := Instr.snext c t k stream gd
       let x := s.seen c t op
       s.ready c t k op = true → v.st = 1 →
       (mine → (if v.dir then w.commit = v.total else v.next = v.total) → ∃ y, Retires i' s c t y
         ∧ streamed x y i { w with st := 2 } t.val (th.wg gd 0xFFFFFFFF))
       ∧ (mine → (if v.dir then w.commit ≠ v.total ∧ w.slotFree = true else v.next ≠ v.total ∧ v.landed v.next = true) →
         ∃ y, Retires i' s c t y ∧ streamed x y i { w with next := v.next + 1, heldSlot := true } t.val
           (th.wg gd (BitVec.ofNat 32 (v.cr.ubase + v.next % v.slots * 64 * v.chunk))))
       ∧ (¬ mine → Raises i' s c t x { cause := 6, spc := th.pc, sinfo := BitVec.ofNat 32 (5 + 16 * i) }))
    ∧ (let op := Op.sclose stream
       s.ready c t k op = true → v.st ≠ 0 → mine → v.st ≠ 4 → v.out = [] → v.unacked = [] →
       ∃ y, Retires (.sclose c t k stream) s c t y ∧ streamed (s.seen c t op) y i {} t.val th)
    ∧ (let op := Op.sresume stream
       s.ready c t k op = true → v.st = 3 → mine →
       ∃ y again, Retires (.sresume c t k stream) s c t y
        ∧ streamed (s.seen c t op) y i { v with
            st := 1, notified := false, redo := again
            out := v.out.map fun r => if v.faultChunk.toNat ≤ r.chunk then { r with stale := true } else r } t.val th
        ∧ again.Pairwise (fun a b => a.1 < b.1 ∨ (a.1 = b.1 ∧ a.2 < b.2))
        ∧ ∀ j p, (j, p) ∈ again ↔ v.faultChunk.toNat ≤ j ∧ p < (if j = v.iss then v.issPart else (v.parts j).length)
          ∧ ((∃ q, (j, q) ∈ v.redo) ∨ ∃ r ∈ v.out, r.chunk = j ∧ r.stale = false))
    ∧ Writes (.sstat c t k stream gd sel) s c t k (.sstat stream gd sel) (fun y => y.wg gd (match sel.toNat with
        | 0 => BitVec.ofNat 32 (v.st.toNat + (if v.dir then 2 ^ 3 else 0) + (if v.resumable then 2 ^ 4 else 0)
            + (if v.notified then 2 ^ 5 else 0) + v.owner.toNat * 2 ^ 6 + v.out.length * 2 ^ 8 + v.ready * 2 ^ 13)
        | 1 => BitVec.ofNat 32 v.next
        | _ => BitVec.ofNat 32 (v.faultChunk.toNat + v.reason.toNat * 2 ^ 24)))

/-! ## Register writes of the host (R297) -/

/-- The state in which an access to a register of core c at an offset is carried out: a gated grove is awake for what the core field holds
(R200). -/
def Sys2Proof.Machine.State.awake (s : State) (c off : Nat) : State :=
  if trunkHeld off || decide (off = 0xDC0) then s else s.wake (groveOf c)

/-- Row i writes a register of core c at an offset: where the die is up and the grove's state lets the access through, the core becomes y
with rel x y, x being what it was; nothing else changes, but that a stand none of whose cores is STALLED may report its next stall, and the
host has the access's status, OK or REFUSED, for an answer (R297). -/
def Wrote (i : Instr) (s : State) (c off : Nat) (rel : Core → Core → Prop) : Prop :=
  coreOk c = true → s.dieUp (dieOf c) = true → s.accessStop c off true = none → (s.core c).t.reqs = [] →
  ∃ y status, rel ((s.awake c off).core c) y ∧ status ≤ 1
    ∧ exec i s = .next { ((s.awake c off).setCore c y).settleStall c with answers := sset (0, 0) s.answers hostReq (status, 0) }

/-- The 2-bit owner of entry j of a slot table. -/
def ownerOf (v : Word) (j : Nat) : Nat := v.toNat / 4 ^ j % 4

/-- R93 to R95, R104, R105: SLOT_TABLE becomes pending when every enabled thread owns an entry, and takes effect when it is due; THREAD_CTL sets
the enables when each enabled thread owns an entry, thread 0 is on beside any other and a thread being disabled may be: a thread disabled
loses its registers, a thread enabled starts at its START_PC with its two capability slots; CAP_SLOT_n TAG sets the tag of a slot that
passes its checks and clears it otherwise with the failing check's code; refused writes record their code.
Readings and choices of the model it rests on: log 34, 35. -/
def Obligations.ThreadAndSlotRegisterRows : Prop :=
  ∀ (s : State) (c : Nat) (v : Word) (slot : BitVec 4),
    let on := fun (t : Nat) => v.getLsbD t
    let owns := fun (tab : Word) (t : Nat) => ∃ j, j < 16 ∧ ownerOf tab j = t
    let tc := fun (x : Core) (n : ThreadCtl) => ({ x with f := { x.f with tc := n } } : Core)
    Wrote (.slotTableWrite c v) s c 0x40 (fun x y =>
      ((∀ t, t < 4 → x.enabled t = true → owns v t) → y = tc x { x.f.tc with slotPend := some v, slotDue := false })
      ∧ ((∃ t, t < 4 ∧ x.enabled t = true ∧ ¬ owns v t) → y = tc x { x.f.tc with cfgErr := 1 }))
    ∧ (s.runs c = true → coreOk c = true → ∀ n, (s.core c).f.tc.slotDue = true → (s.core c).f.tc.slotPend = some n →
      exec (.slotTableTakesEffect c) s = .next (s.setCore c (tc (s.core c)
        { (s.core c).f.tc with slotTable := n, slotPend := none, slotDue := false })))
    ∧ Wrote (.threadCtlWrite c v) s c 0x44 (fun x y =>
      let tab := x.f.tc.slotPend.getD x.f.tc.slotTable
      ((∀ t, t < 4 → on t = true → owns tab t) → ((∃ t, 1 ≤ t ∧ t < 4 ∧ on t = true) → on 0 = true) →
        (∀ t, t < 4 → x.enabled t = true → on t = false → (x.th t).isStopped = true) → x.f.st.mode = false →
        y.f.tc = { x.f.tc with en := BitVec.ofNat 4 v.toNat, supFirst := v.getLsbD 4 }
        ∧ ∀ t, 1 ≤ t → t < 4 → y.th t =
            (if x.enabled t = true ∧ on t = false then { relq := (x.th t).relq }
             else if x.enabled t = false ∧ on t = true then
               ((({ started := true, cycHi := (x.th t).cycHi, kHi := (x.th t).kHi, relq := (x.th t).relq, pc := sget 0 x.f.exc.startPc t }
                  : Thread).wc 0 (sget {} x.f.exc.slots (7 + t))).wc 15 (sget {} x.f.exc.slots (3 + t)))
             else x.th t))
      ∧ ((∃ t, t < 4 ∧ on t = true ∧ ¬ owns tab t) → y = tc x { x.f.tc with cfgErr := 1 })
      ∧ ((∀ t, t < 4 → on t = true → owns tab t) → (∃ t, 1 ≤ t ∧ t < 4 ∧ on t = true) → on 0 = false →
        y = tc x { x.f.tc with cfgErr := 2 })
      ∧ ((∀ t, t < 4 → on t = true → owns tab t) → ((∃ t, 1 ≤ t ∧ t < 4 ∧ on t = true) → on 0 = true) →
        (∃ t, t < 4 ∧ x.enabled t = true ∧ on t = false ∧ x.mayDisable t = false) → y = tc x { x.f.tc with cfgErr := 3 }))
    ∧ (slot.toNat ≤ 10 → Wrote (.capSlotTagWrite c slot v) s c (0xB0 + 0x20 * slot.toNat) (fun x y =>
      let old := sget {} x.f.exc.slots slot.toNat
      let code := if kindBits old.kind = 0 then 1
        else if old.perm.toNat &&& (0xFFF - kindPerm old.kind) ≠ 0 then 2
        else if kindLimit old.kind ≤ old.ubase ∨ kindLimit old.kind < old.ubase + old.len then 3
        else if old.sealWord ≠ 0 then 4
        else if old.unusedZero = false then 5
        else 0
      y = { x with f := { x.f with exc := { x.f.exc with slots := y.f.exc.slots, capErr := y.f.exc.capErr } } }
      ∧ (∀ n, sget {} y.f.exc.slots n = if n = slot.toNat then { old with tag := v.getLsbD 0 && decide (code = 0) }
          else sget {} x.f.exc.slots n)
      ∧ y.f.exc.capErr = if v.getLsbD 0 = true ∧ code ≠ 0 then BitVec.ofNat 8 (code + 16 * slot.toNat) else x.f.exc.capErr))
    ∧ (∀ n : BitVec 4, 10 < n.toNat → coreOk c = true → Keeps (.capSlotTagWrite c n v) s)

/-- The windows, credit entries and channel halves of a core that a register write changes: only entry i of one table, and the error
register. -/
def Sys2Proof.Machine.Core.winOnly (x y : Core) : Prop :=
  y = { x with f := { x.f with win := { x.f.win with iwin := y.f.win.iwin, ocred := y.f.win.ocred, cfgErr := y.f.win.cfgErr } } }

/-- R118, R143, R202, R204: L2_RELEASE with an occupied L2 set of thread 0 restores it; IWIN_CTL and OCRED_CTL enable an entry that passes its
checks, an OCRED entry with the whole of its LIMIT as balance, disable it, and refuse a change of an enabled one with code 3; SP_CNT_CLR zeroes
every counter; RT_CFG takes fields in range, refuses others with code 1, and refuses those in range with code 2 while a VROUTE runs.
Readings and choices of the model it rests on: log 34, 35. -/
def Obligations.WindowCreditAndRoutingRegisterRows : Prop :=
  ∀ (s : State) (c : Nat) (v : Word) (e : BitVec 4),
    let limit := v.toNat % 2 ^ 10
    let cntr := v.toNat / 2 ^ 10 % 2 ^ 6
    let en := v.getLsbD 16
    Wrote (.l2Release c v) s c 0x98 (fun x y =>
      (v.getLsbD 0 = true → x.f.exc.l2.occ = true → x.f.exc.l2.thread = 0 →
        y.f.exc = { x.f.exc with l2 := { x.f.exc.l2 with occ := false }, level := x.f.exc.l2.fromLevel }
        ∧ restored (y.th 0) (x.th 0) x.f.exc.l2.spc x.f.exc.l2.sflags x.f.exc.l2.sprog x.f.exc.l2.scode
          (if x.f.exc.l2.scapWb then some (x.f.exc.l2.scapIdx, x.f.exc.l2.scap) else none))
      ∧ ((v.getLsbD 0 = false ∨ x.f.exc.l2.occ = false) → y = x))
    ∧ Wrote (.iwinCtlWrite c e v) s c (0x344 + 0x10 * e.toNat) (fun x y =>
      let old := x.iwin e.toNat
      let new : IWin := { old with len := BitVec.ofNat 10 limit, cntr := BitVec.ofNat 6 cntr, en := en }
      let meets := ∃ i, i < 16 ∧ i ≠ e.toNat ∧ (x.iwin i).en = true
        ∧ overlap old.base.toNat limit (x.iwin i).base.toNat (x.iwin i).len.toNat = true
      x.winOnly y ∧ (∀ i, i ≠ e.toNat → y.iwin i = x.iwin i)
      ∧ (en = false → y.iwin e.toNat = new ∧ y.f.win.cfgErr = x.f.win.cfgErr)
      ∧ (en = true → old.en = false → 1 ≤ limit → old.base.toNat + limit ≤ 512 → ¬ meets →
        y.iwin e.toNat = new ∧ y.f.win.cfgErr = x.f.win.cfgErr)
      ∧ (en = true → old.en = false → (limit = 0 ∨ 512 < old.base.toNat + limit) →
        y.iwin e.toNat = old ∧ y.f.win.cfgErr = BitVec.ofNat 9 (1 + 16 * e.toNat))
      ∧ (en = true → old.en = true → new ≠ old → y.iwin e.toNat = old ∧ y.f.win.cfgErr = BitVec.ofNat 9 (3 + 16 * e.toNat)))
    ∧ Wrote (.ocredCtlWrite c e v) s c (0x444 + 0x10 * e.toNat) (fun x y =>
      let old := x.ocred e.toNat
      let new : OCred := { old with
        limit := BitVec.ofNat 10 limit, cntr := BitVec.ofNat 6 cntr, en := en, rwErr := old.rwErr && !v.getLsbD 17
        credOvf := old.credOvf && !v.getLsbD 18 }
      x.winOnly y ∧ (∀ i, i ≠ e.toNat → y.ocred i = x.ocred i)
      ∧ (en = false → y.ocred e.toNat = new ∧ y.f.win.cfgErr = x.f.win.cfgErr)
      ∧ (en = true → old.en = false → (∀ i, i < 16 → i ≠ e.toNat → (x.ocred i).en = true → ((x.ocred i).tgt, (x.ocred i).win) ≠ (old.tgt, old.win)) →
        (1 ≤ limit → limit ≤ 512 → coreOk old.tgt.toNat = true → s.routeOk c old.tgt.toNat (x.orderTo old.tgt.toNat) = true →
          y.ocred e.toNat = { new with bal := BitVec.ofNat 18 (256 * limit) } ∧ y.f.win.cfgErr = x.f.win.cfgErr)
        ∧ ((limit = 0 ∨ 512 < limit) → y.ocred e.toNat = old ∧ y.f.win.cfgErr = BitVec.ofNat 9 (5 + 16 * e.toNat + 256)))
      ∧ (en = true → old.en = true → (old.limit.toNat, old.cntr.toNat) ≠ (limit, cntr) →
        y.ocred e.toNat = old ∧ y.f.win.cfgErr = BitVec.ofNat 9 (3 + 16 * e.toNat + 256)))
    ∧ Wrote (.spCntClr c v) s c 0x628 (fun x y =>
      if v.getLsbD 0 then y = { x with t := { x.t with cnt := [] }, f := { x.f with mx := { x.f.mx with ccnt := [] } } } else y = x)
    ∧ Wrote (.rtCfgWrite c v) s c 0x600 (fun x y =>
      let experts := v.toNat % 2 ^ 7
      let topk := v.toNat / 2 ^ 8 % 2 ^ 3
      let ok := 1 ≤ experts ∧ experts ≤ 64 ∧ 1 ≤ topk ∧ topk ≤ 4 ∧ topk ≤ experts
      let sp := fun (n : Sparsity) => y = { x with f := { x.f with sp := n } }
      (ok → x.routing = true → sp { x.f.sp with cfgErr := 2 })
      ∧ (x.routing = false → ok → sp { x.f.sp with
          experts := BitVec.ofNat 7 experts, topk := BitVec.ofNat 3 topk, minEn := v.getLsbD 11
          payload := BitVec.ofNat 3 (v.toNat / 2 ^ 16) })
      ∧ (¬ ok → sp { x.f.sp with cfgErr := 1 }))

/-- R206, R226, R230, R237, R238, R243, R256: DL_LAYER configures a delta layer, one newly enabled standing before a key frame; DL_CNT_CLR zeroes
the delta counts; CTXSW_REQ makes a switch pending; TQ_CTL disabling a queue discards its tokens and returns their credit; TPORT_CTL enables
a port with its whole LIMIT as balance; a word of the context store of a context that is not valid is written. Refused writes record
their code.
Readings and choices of the model it rests on: log 30, 31, 34, 35. -/
def Obligations.DeltaAndStandRegisterRows : Prop :=
  ∀ (s : State) (c : Nat) (v : Word) (l : BitVec 4) (q : BitVec 2) (p : BitVec 3) (i : BitVec 9),
    let st := fun (x : Core) (n : Stand) => ({ x with f := { x.f with st := n } } : Core)
    let refused := fun (x y : Core) (code index : Nat) => y = st x { x.f.st with cfgErr := BitVec.ofNat 8 (code + 16 * index) }
    Wrote (.dlLayerWrite c l v) s c (0x880 + 0x10 * l.toNat) (fun x y =>
      let old := x.dl l.toNat
      let ty := v.toNat % 8
      let key : BitVec 8 := BitVec.ofNat 8 (v.toNat / 2 ^ 4)
      let en := v.getLsbD 22
      let bad := fun (code : Nat) => y = { x with f := { x.f with dl := { x.f.dl with cfgErr := BitVec.ofNat 8 (code + 16 * l.toNat) } } }
      (ty = 3 ∨ 4 < ty → bad 1) ∧ (ty ≠ 3 → ty ≤ 4 → key = 0 → bad 2)
      ∧ (ty ≠ 3 → ty ≤ 4 → key ≠ 0 → x.deltaBusy l.toNat = false → (old.en = true → old.type.toNat = ty ∧ old.keyInt = key) →
        (∀ j, y.dl j = if j = l.toNat then (if en = true ∧ old.en = false then
            { old with type := BitVec.ofNat 3 ty, keyInt := key, en := true, pos := key - 1, keyNow := true }
          else { old with type := BitVec.ofNat 3 ty, keyInt := key, en := en }) else x.dl j)
        ∧ y = { x with f := { x.f with dl := { x.f.dl with layers := y.f.dl.layers } } }))
    ∧ Wrote (.dlCntClr c v) s c 0x844 (fun x y =>
      (v.getLsbD 0 = false → y = x)
      ∧ (v.getLsbD 0 = true → (∀ j, j < 16 → y.dl j = { x.dl j with run := [], snap := [] }) ∧ y.f.dl.resumeCyc = 0
        ∧ y = { x with f := { x.f with dl := y.f.dl } }))
    ∧ Wrote (.ctxswReqWrite c v) s c 0xC10 (fun x y =>
      let ctx := v.toNat % 4
      let disp := v.toNat / 4 % 4
      let ok := x.f.st.mode = true ∧ disp ≠ 3 ∧ x.f.st.ctxValid.getLsbD ctx = true
      (x.f.st.swPend = true → refused x y 8 ctx)
      ∧ (x.f.st.swPend = false → ¬ ok → refused x y 9 ctx)
      ∧ (x.f.st.swPend = false → ok →
        y = st x { x.f.st with swPend := true, swCtx := BitVec.ofNat 2 ctx, swDisp := BitVec.ofNat 2 disp }))
    ∧ Wrote (.tqCtlWrite c q v) s c (0xC44 + 0x20 * q.toNat) (fun x y =>
      let old := x.tq q.toNat
      let new : TQueue := { old with
        extUnits := BitVec.ofNat 5 v.toNat, extBase := BitVec.ofNat 7 (v.toNat / 2 ^ 8), en := v.getLsbD 15 }
      (∀ j, j ≠ q.toNat → y.tq j = x.tq j)
      ∧ (new.en = true → old.en = false → 1024 * (new.extBase.toNat + new.extUnits.toNat) ≤ 2 ^ 17 → y.tq q.toNat = new)
      ∧ (new.en = true → old.en = false → 2 ^ 17 < 1024 * (new.extBase.toNat + new.extUnits.toNat) → refused x y 6 q.toNat)
      ∧ (new.en = true → old.en = true → (new.extBase, new.extUnits) ≠ (old.extBase, old.extUnits) → refused x y 4 q.toNat)
      ∧ (new.en = false → old.en = true → y.tq q.toNat = { new with toks := [], ext := [], extNext := 0 }
        ∧ (∀ j, sget 0 y.t.cnt j = sget 0 x.t.cnt j + if j = cntStand 6 then BitVec.ofNat 64 old.total else 0)
        ∧ y.t.outq.length = x.t.outq.length + old.total))
    ∧ Wrote (.tportCtlWrite c p v) s c (0xCC4 + 0x10 * p.toNat) (fun x y =>
      let old := x.tport p.toNat
      let limit := v.toNat % 2 ^ 10
      let en := v.getLsbD 10
      let new : TPort := { old with
        limit := BitVec.ofNat 10 limit, en := en, errCleared := old.errCleared && !v.getLsbD 11, credOvf := old.credOvf && !v.getLsbD 12 }
      (∀ j, j ≠ p.toNat → y.tport j = x.tport j)
      ∧ (en = false → y.tport p.toNat = new)
      ∧ (en = true → old.en = true → old.limit.toNat = limit → y.tport p.toNat = new)
      ∧ (en = true → old.en = true → old.limit.toNat ≠ limit → refused x y 4 p.toNat)
      ∧ (en = true → old.en = false → (limit = 0 ∨ 512 < limit) → refused x y 5 p.toNat)
      ∧ (en = true → old.en = false → 1 ≤ limit → limit ≤ 512 → coreOk old.tgt.toNat = true →
        s.routeOk c old.tgt.toNat (x.orderTo old.tgt.toNat) = true → y.tport p.toNat = { new with bal := BitVec.ofNat 10 limit }))
    ∧ Wrote (.contextStoreWrite c i v) s c (0x1000 + 4 * i.toNat) (fun x y =>
      (x.f.st.ctxValid.getLsbD (i.toNat / 128) = true → refused x y 2 (i.toNat / 128))
      ∧ (x.f.st.ctxValid.getLsbD (i.toNat / 128) = false →
        y = st x { x.f.st with store := y.f.st.store, storeBad := y.f.st.storeBad }
        ∧ (∀ j, sget 0 y.f.st.store j = if j = i.toNat then v else sget 0 x.f.st.store j)
        ∧ ∀ j, sget false y.f.st.storeBad j = if j = i.toNat / 2 then false else sget false x.f.st.storeBad j))

/-- R272, R282, R321, R322, R325: K_ADD raises a counter by a non-zero amount and records who; CH_OUT_CTL enables a half whose target and order
pass the checks, numbering from 0, and disabling one drops its pool entries; CH_IN_CTL enables a half whose ring overlaps no other, empty and
from 0; STR_CTL's RESUME and ABORT bits resume and abort a stream.
Readings and choices of the model it rests on: log 32, 34, 35. -/
def Obligations.ChannelAndStreamRegisterRows : Prop :=
  ∀ (s : State) (c : Nat) (v : Word) (e : BitVec 5) (i : BitVec 2),
    let ch := fun (x : Core) (n : Chan) => ({ x with f := { x.f with ch := n } } : Core)
    let refused := fun (x y : Core) (code index side : Nat) =>
      y = ch x { x.f.ch with cfgErr := BitVec.ofNat 11 (code + 16 * index + 1024 * side) }
    Wrote (.kAdd c v) s c 0xE10 (fun x y =>
      let k := v.toNat % 2 ^ 6
      let n := v.toNat / 2 ^ 6
      (n = 0 → refused x y 5 k 0)
      ∧ (n ≠ 0 → y = ch x { x.f.ch with k := y.f.ch.k }
        ∧ ∀ j, y.k j = if j = k then { val := (x.k k).val + BitVec.ofNat 64 n, kind := 4 } else x.k j))
    ∧ Wrote (.chOutCtlWrite c e v) s c (0x1C04 + 0x20 * e.toNat) (fun x y =>
      let old := x.chOut e.toNat
      let en := v.getLsbD 0
      let new : ChOut := { old with
        en := en, errRej := old.errRej && !v.getLsbD 1, errClr := old.errClr && !v.getLsbD 2, errUn := old.errUn && !v.getLsbD 3 }
      (∀ j, j ≠ e.toNat → y.chOut j = x.chOut j)
      ∧ (en = old.en → y.chOut e.toNat = new ∧ y.f.ch.pool = x.f.ch.pool)
      ∧ (en = false → old.en = true → y.chOut e.toNat = { new with recovery := false }
        ∧ y.f.ch.pool = x.f.ch.pool.filter fun m => m.dbg || !decide (m.ep = e))
      ∧ (en = true → old.en = false → old.ext = false → old.order.toNat ≤ 1 → coreOk old.tgt.toNat = true →
        (∀ j, j < 32 → j ≠ e.toNat → (x.chOut j).en = true → (x.chOut j).ext = false → (x.chOut j).tgt = old.tgt → (x.chOut j).order = old.order) →
        (s.routeOk c old.tgt.toNat (decide (old.order = 1)) = true →
          y.chOut e.toNat = { new with seqNext := 0, recovery := false, tag := old.tag + 1 } ∧ y.f.ch.cfgErr = x.f.ch.cfgErr)
        ∧ (s.routeOk c old.tgt.toNat (decide (old.order = 1)) = false → refused x y 7 e.toNat 0)))
    ∧ Wrote (.chInCtlWrite c e v) s c (0x1C10 + 0x20 * e.toNat) (fun x y =>
      let old := x.chIn e.toNat
      let en := v.getLsbD 0
      let new : ChIn := { old with
        en := en, sigEn := v.getLsbD 1, sigCntr := BitVec.ofNat 6 (v.toNat / 2 ^ 2), qbase := BitVec.ofNat 8 (v.toNat / 2 ^ 8) }
      let a := 512 * new.qbase.toNat
      let meets := (∃ j, j < 32 ∧ j ≠ e.toNat ∧ (x.chIn j).en = true ∧ overlap a 512 (512 * (x.chIn j).qbase.toNat) 512 = true)
        ∨ ∃ j, j < 16 ∧ (x.iwin j).en = true ∧ overlap a 512 (256 * (x.iwin j).base.toNat) (256 * (x.iwin j).len.toNat) = true
      (∀ j, j ≠ e.toNat → y.chIn j = x.chIn j)
      ∧ (en = false → y.chIn e.toNat = { new with q := [], gap := false, resumeSent := false, resumeDue := false })
      ∧ (en = true → old.en = true → new ≠ old → refused x y 1 e.toNat 1)
      ∧ (en = true → old.en = false → meets → refused x y 3 e.toNat 1)
      ∧ (en = true → old.en = false → ¬ meets → y.chIn e.toNat =
          { new with seqExp := 0, gap := false, resumeSent := false, resumeDue := false, q := [], head := 0 }))
    ∧ Wrote (.strCtlResume c i) s c (0xF4C + 0x10 * i.toNat) (fun x y =>
      ((x.str i.toNat).st ≠ 3 → ∀ j, y.str j = x.str j)
      ∧ ((x.str i.toNat).st = 3 → (y.str i.toNat).st = 1 ∧ (y.str i.toNat).notified = false ∧ ∀ j, j ≠ i.toNat → y.str j = x.str j)
      ∧ y = { x with f := { x.f with str := y.f.str } })
    ∧ Wrote (.strCtlAbort c i) s c (0xF4C + 0x10 * i.toNat) (fun x y =>
      let old := x.str i.toNat
      let open_ := old.st ≠ 0 ∧ old.st ≠ 4
      (∀ j, j ≠ i.toNat → y.str j = x.str j)
      ∧ (open_ → y.str i.toNat = { old with
          st := 4, faultChunk := BitVec.ofNat 24 old.next, reason := 12, notified := false, redo := []
          unacked := old.unacked.filter fun p => old.out.any fun r => decide (r.chunk = p.1) })
      ∧ (¬ open_ → y.str i.toNat = old)
      ∧ y = { x with f := { x.f with str := y.f.str }, t := { x.t with notices := y.t.notices } }
      ∧ y.t.notices = if open_ ∧ x.f.st.mode = true then x.t.notices ++ [.streamFault i.toNat 12] else x.t.notices)

/-- R413, R435, R478, R481 to R485, R488, R489, R491 to R497: EXT_EVT_CTL sets EN; CHECK_CFG takes S up to 10; CORE_RESET leaves the scratchpad and
starts everything else of the core field anew, unless the core's stand runs; DBG_CTL stops, steps and resumes threads; DBG_REPLY and
TRACE_CTL take their fields; a breakpoint's low address bits and a watchpoint's range are checked; a window of a stopped thread writes its
register.
Readings and choices of the model it rests on: log 24, 34, 35. -/
def Obligations.CheckResetAndDebugRegisterRows : Prop :=
  ∀ (s : State) (c : Nat) (v : Word) (off : Nat) (t : Fin 4) (g : BitVec 5),
    let dbg := fun (x : Core) (n : Debug) => ({ x with f := { x.f with dbg := n } } : Core)
    let refused := fun (x y : Core) (code t : Nat) => y = { x with t := { x.t with dbgErr := BitVec.ofNat 6 (code + 16 * t) } }
    let stops := fun (j : Nat) => v.getLsbD j
    let steps := fun (j : Nat) => v.getLsbD (4 + j)
    let resumes := fun (j : Nat) => v.getLsbD (8 + j)
    let ctl := fun (x y : Core) =>
      (∀ j, j < 4 → ¬ (stops j = true ∧ steps j = true) ∧ ¬ (stops j = true ∧ resumes j = true) ∧ ¬ (steps j = true ∧ resumes j = true)) →
      x.f.exc.l2double = false →
      let stopped := fun (j : Nat) => (x.th j).stop ≠ 0 ∧ (x.th j).stepping = false
      ((∃ j, j < 4 ∧ steps j = true ∧ ¬ stopped j) → ∃ j, j < 4 ∧ refused x y 3 j)
      ∧ ((∀ j, j < 4 → steps j = true → stopped j) → ∀ j, j < 4 → y.th j =
          (if stops j = true ∧ x.enabled j = true ∧ ¬ stopped j then { x.th j with stop := 1, stepping := false, skipBp := false }
           else if steps j = true then { x.th j with stepping := true, skipBp := true }
           else if resumes j = true ∧ stopped j then { x.th j with stop := 0, stepping := false, skipBp := true }
           else x.th j))
    Wrote (.extEvtCtlWrite c v) s c 0xB8C (fun x y => y = { x with f := { x.f with dvfsEn := v.getLsbD 0 } })
    ∧ Wrote (.checkCfgWrite c v) s c 0x540 (fun x y =>
      if v.toNat % 16 ≤ 10 then y = { x with t := { x.t with checkS := BitVec.ofNat 4 v.toNat, checkEn := v.getLsbD 4 } }
      else y = { x with f := { x.f with mx := { x.f.mx with cfgRefused := true } } })
    ∧ Wrote (.coreReset c) s c 0xDA0 (fun x y =>
      (s.inRun c = true → y = { x with t := { x.t with resetErr := 1 } })
      ∧ (s.inRun c = false → y.f = { spad := { mem := x.f.spad.mem, tags := x.f.spad.tags, tagBad := x.f.spad.tagBad, err := x.f.spad.err }
                                     dmaRange := x.f.dmaRange }
        ∧ y.t = { x.t with epoch := x.t.epoch + 1, stallDue := false, qwDue := none, resetMark := false
                           latch := x.t.latch.filter fun p => trunkHeld (p.1 % 65536) }))
    ∧ Wrote (.dbgStop c v) s c 0x2000 ctl ∧ Wrote (.dbgStep c v) s c 0x2000 ctl ∧ Wrote (.dbgResume c v) s c 0x2000 ctl
    ∧ Wrote (.dbgReplyWrite c v) s c 0x2010 (fun x y => y = dbg x { x.f.dbg with
        replyBase := BitVec.ofNat 11 (v.toNat / 2 ^ 6), replyCntr := BitVec.ofNat 6 (v.toNat / 2 ^ 17), replyEn := v.getLsbD 23
        replyN := if v.getLsbD 23 = true ∧ x.f.dbg.replyEn = false then 0 else x.f.dbg.replyN })
    ∧ Wrote (.traceCtlWrite c v) s c 0x2014 (fun x y =>
      let mode := v.toNat % 4
      let new : Debug := { x.f.dbg with
        traceMode := BitVec.ofNat 2 mode, traceThr := BitVec.ofNat 4 (v.toNat / 4), traceWrap := v.getLsbD 6, traceStop := v.getLsbD 7 }
      (mode = 3 ∨ (x.f.dbg.traceMode ≠ 0 ∧ mode ≠ 0) → refused x y 7 0)
      ∧ (mode = 0 → y = dbg x new)
      ∧ (mode ≠ 3 → mode ≠ 0 → x.f.dbg.traceMode = 0 → y = { dbg x { new with trace := [] } with
          t := { x.t with traceCnt := 0, traceNext := 0, traceFull := false, traceFrozen := false } }))
    ∧ (∀ k, k < 4 → Wrote (.bpWpWrite c (0x2020 + 4 * k) v) s c (0x2020 + 4 * k) (fun x y =>
      (v.toNat % 4 ≠ 0 → refused x y 5 0)
      ∧ (v.toNat % 4 = 0 → y = dbg x { x.f.dbg with bp := y.f.dbg.bp }
        ∧ ∀ j, sget 0 y.f.dbg.bp j = if j = k then BitVec.ofNat 32 (v.toNat % 2 ^ 26) else sget 0 x.f.dbg.bp j)))
    ∧ Wrote (.threadWindowWrite c (0x4000 + 0x1000 * t.val + 4 * g.toNat) v) s c (0x4000 + 0x1000 * t.val + 4 * g.toNat) (fun x y =>
      (x.windowOpen t.val = true → ∀ j, y.th j = if j = t.val then (x.th j).wg g v else x.th j)
      ∧ (x.windowOpen t.val = false → refused x y 4 t.val))
    ∧ (coreOk c = true → ¬ (0x2020 ≤ off ∧ off < 0x2040) → Keeps (.bpWpWrite c off v) s)
    ∧ (coreOk c = true → ¬ (0x4000 ≤ off ∧ off < 0x8000) → Keeps (.threadWindowWrite c off v) s)
    ∧ (coreOk c = true → (s.core c).t.resetMark = true → s.gstate c ≠ 3 → Completes (.lightGroveDeferredReset c) s fun u => OnlyCore s u c
        ∧ (u.core c).f = (s.core c).f.afterReset ∧ (u.core c).t.resetMark = false)

/-- R297, R333: an understory access answers ABSENT to a die that is not up, and stops by the target grove's state before it touches a
register; otherwise a read or a write is carried out; its requester holds its status and value then. A row that writes a register is that
access by the host. An access of the host to BAR0 reads its register, or writes it as the register's own row does; one of another size than
4 bytes is ignored and reads as zero. A write of BAR2 is one of a vector's address, data or mask bit (R326, R346), at offsets that the model presumes.
Readings and choices of the model it rests on: log 20, 38, 57. -/
def Obligations.UnderstoryAccessStopsOrIsCarriedOut : Prop :=
  ∀ (s : State) (c off requester : Nat) (w : Option Word) (v : Word) (tgt : CfgTarget) (q : UReq),
    let done := fun (q : UReq) => let a := s.access q
      ({ a.2.2 with answers := sset (0, 0) a.2.2.answers q.requester (a.1, a.2.1) } : State)
    let host := fun (t : CfgTarget) => t = .bar2 ∨ ∃ n, t = .bar0 n
    (targetOk q.target = true → ¬ host q.target → exec (.understoryAccess q) s = .next (done q))
    ∧ (targetOk q.target = false → exec (.understoryAccess q) s = .fault .absentTarget)
    ∧ (targetOk tgt = true → ¬ host tgt → exec (.configRegisterWrite tgt off v) s
        = .next (done { requester := 25, target := tgt, offset := off, write := some v }))
    ∧ (∀ n, n ≠ 4 → exec (.understoryAccess { requester := requester, target := .bar0 n, offset := off, write := w }) s
        = .next { s with answers := sset (0, 0) s.answers requester (0, 0) })
    ∧ exec (.understoryAccess { requester := requester, target := .bar0 4, offset := off, write := none }) s
        = .next { (s.bar0Read off).2 with answers := sset (0, 0) (s.bar0Read off).2.answers requester (0, (s.bar0Read off).1) }
    ∧ exec (.configRegisterWrite (.bar0 4) 0x14 v) s = exec (.coolingWrite v) s
    ∧ exec (.configRegisterWrite (.bar0 4) 0x2200 v) s = exec (.evtHeadDb v) s
    ∧ exec (.configRegisterWrite (.bar0 4) 0x2204 v) s = exec (.dbgHeadDb v) s
    ∧ (∀ n, n < 64 → exec (.configRegisterWrite (.bar0 4) (0x2000 + 8 * n) v) s = exec (.sqTailDb n v) s
        ∧ exec (.configRegisterWrite (.bar0 4) (0x2000 + 8 * n + 4) v) s = exec (.cqHeadDb n v) s)
    ∧ (∀ n, n < 64 → s.cxl.link = true →
      let word := fun (i : Nat) (P : State → Prop) => Completes (.configRegisterWrite .bar2 (16 * n + i) v) s fun u => u = { s with cxl := u.cxl } ∧ P u
      let entry := fun (f : DWord × Word → DWord × Word) (u : State) => u.cxl = { s.cxl with msix := u.cxl.msix }
        ∧ ∀ k, sget (0, 0) u.cxl.msix k = (if k = n then f else id) (sget (0, 0) s.cxl.msix k)
      word 0 (entry fun e => (BitVec.ofNat 64 (v.toNat + 2 ^ 32 * (e.1.toNat / 2 ^ 32)), e.2))
      ∧ word 4 (entry fun e => (BitVec.ofNat 64 (e.1.toNat % 2 ^ 32 + 2 ^ 32 * v.toNat), e.2)) ∧ word 8 (entry fun e => (e.1, v))
      ∧ (v.getLsbD 0 = true → word 12 fun u => u.cxl = { s.cxl with mask := u.cxl.mask }
        ∧ ∀ k, sget true u.cxl.mask k = (sget true s.cxl.mask k || decide (k = n)))
      ∧ (v.getLsbD 0 = false → let held := sget false s.cxl.pba n
        word 12 fun u => u.cxl = { s.cxl with mask := u.cxl.mask, pba := u.cxl.pba, sent := u.cxl.sent, msg := u.cxl.msg }
        ∧ (∀ k, sget true u.cxl.mask k = (sget true s.cxl.mask k && decide (k ≠ n)))
        ∧ (∀ k, sget false u.cxl.pba k = (sget false s.cxl.pba k && decide (k ≠ n)))
        ∧ (∀ k, sget 0 u.cxl.sent k = sget 0 s.cxl.sent k + if k = n ∧ held = true then 1 else 0)
        ∧ u.cxl.msg = if held then some (sget (0, 0) s.cxl.msix n) else s.cxl.msg))
    ∧ (let q : UReq := { requester := requester, target := .core c, offset := off, write := w }
       let held := trunkHeld off || decide (off = 0xDC0)
       let bound := (s.core c).t.session ≠ 0 ∧ s.dbgGrant c = false
       (s.dieUp (dieOf c) = false → s.access q = (5, 0, s))
       ∧ (s.dieUp (dieOf c) = true → 0x2000 ≤ off → bound → s.access q = (4, 0, s))
       ∧ (s.dieUp (dieOf c) = true → (off < 0x2000 ∨ ¬ bound) →
         ((s.gstate c = 6 ∧ (w.isSome = true ∨ held = false)) ∨ (s.gstate c = 5 ∧ held = false) → s.access q = (3, 0, s))
         ∧ (held = false → s.gstate c ∈ [0, 3, 4] → s.access q = (2, 0, s))
         ∧ ((held = true ∧ (s.gstate c ≠ 6 ∨ w = none)) ∨ s.gstate c ∈ [1, 2] → (s.core c).t.reqs = [] → (s.access q).1 ∈ [0, 1]
           ∧ ∀ j, j ≠ c → groveOf j ≠ groveOf c → (s.access q).2.2.core j = s.core j)))

/-! ## What a core does by itself (chapters 04 to 06, 10, 11, 13) -/

/-- Row i is an event of core c: where its grove runs, and the core has made no request of the module, the row completes and nothing but core c
changes; it becomes y with rel x y, x being what it was. -/
def Stepped (i : Instr) (s : State) (c : Nat) (rel : Core → Core → Prop) : Prop :=
  coreOk c = true → s.runs c = true → (s.core c).t.reqs = [] → Completes i s fun u => OnlyCore s u c ∧ rel (s.core c) (u.core c)

/-- Thread t of the core alone is enabled and stands, with nothing in its way, at an unconditional instruction that its fetch buffer or the
context store holds: no result, branch, claim, stop, breakpoint or run is outstanding. -/
def Sys2Proof.Machine.Core.alone (x : Core) (t : Nat) (w : Word) (op : Op) : Prop :=
  (∀ v, v < 4 → x.enabled v = decide (v = t)) ∧ x.canIssue t = true ∧ (x.th t).stop = 0 ∧ (x.th t).bubble = 0 ∧ (x.th t).busy = []
  ∧ x.f.mv = none ∧ x.f.run = none ∧ x.breakpoint t = none ∧ (x.th t).prog.valid = false
  ∧ x.head t = .word w ∧ decodeOp w = some (0, op) ∧ encOk 0 op = true

/-- R74, R84, R85, R89: a die cycle of a running core brings its CYC to its die's count, raised by one where the core has run the die's present
cycle, adds one to ALIVE and moves the slot pointer on by one, no thread being at a bank conflict; with no thread enabled it is an idle slot and no thread changes; a thread that is ready, whatever the owner of the slot, issues
its instruction (here MOVI and a register ALU row). -/
def DieCycleSelectsAndIssues : Prop :=
  ∀ (s : State) (c : Nat), s.dieUp (dieOf c) = true →
    let x := s.core c
    let d := s.die (dieOf c)
    let now : DWord := if x.t.cyc < d.cyc then d.cyc else d.cyc + 1
    let cycled := fun (rel : Core → Core → Prop) => coreOk c = true → s.runs c = true → x.t.reqs = [] →
      Completes (.dieCycleIssue c) s fun u => u = { s with cores := u.cores, dies := u.dies } ∧ (∀ w, w ≠ c → u.core w = s.core w)
        ∧ (∀ e, u.die e = if e = dieOf c then { d with cyc := now } else s.die e) ∧ rel x (u.core c)
    let counted := fun (y : Core) => y.t.cyc = now ∧ y.t.alive = x.t.alive + 1 ∧ y.f.tc.pointer = x.f.tc.pointer + 1
    ((∀ v, v < 4 → x.enabled v = false) → x.inProgress = [] → cycled fun x y => counted y ∧ y.f.spad = x.f.spad
      ∧ sget 0 y.t.cnt (cntPerf 4) = sget 0 x.t.cnt (cntPerf 4) + 1
      ∧ ∀ v, v < 4 → (x.th v).bubble = 0 → (x.th v).busy = [] → y.th v = x.th v)
    ∧ (∀ (t : Fin 4) (w : Word) (gd ga gb : BitVec 5) (sf : Bool) (imm : BitVec 16) (f : Alu),
        let th := x.th t.val
        let issued := fun (z : Thread) => cycled fun x y => counted y
          ∧ sget 0 y.t.cnt (cntPerf t.val) = sget 0 x.t.cnt (cntPerf t.val) + 1
          ∧ (∀ j, (y.th t.val).rg j = z.rg j) ∧ (∀ j, (y.th t.val).rv j = th.rv j) ∧ (∀ j, (y.th t.val).rc j = th.rc j)
          ∧ (y.th t.val).flags = z.flags ∧ (y.th t.val).pc = th.pc + 4 ∧ y.f.spad.mem = x.f.spad.mem
        (x.alone t.val w (.movi gd imm) → issued (th.wg gd (BitVec.ofInt 32 imm.toInt)))
        ∧ (x.alone t.val w (.alu f gd ga gb sf) → issued (f.effect gd sf (th.rg ga) (th.rg gb) th)))

/-- R74, R84, R85, R87, R89, R112, R398: a die cycle selects a ready thread and issues its instruction; a row that a thread cannot issue leaves
the state as it is (the model's choice for such an event: log 3).
Readings and choices of the model it rests on: log 3, 7, 36. -/
def Obligations.DieCycleIssuesAndIdleThreadsDoNothing : Prop :=
  ThreadThatCannotIssueDoesNothing ∧ DieCycleSelectsAndIssues

/-- R109 to R112, R126, R135, R279: the oldest corrected word is written back; the lowest pending asynchronous cause enters L2 at thread 0; the
waiting fault of the lowest cause, then thread, enters the free L1 set; the oldest release of a thread whose earlier writes are acknowledged
takes effect, a held message free to leave, a counter raised with its credit returned, a packet sent, and waits otherwise; the
quiescent-wait detector raises cause 12 with the states.
Readings and choices of the model it rests on: log 26. -/
def Obligations.EntriesReleasesAndDetectorRows : Prop :=
  ∀ (s : State) (c : Nat) (t : Fin 4),
    let x := s.core c
    (∀ w rest, x.f.spad.wb = w :: rest → Stepped (.spadWriteBack c) s c fun x y =>
      y = { x with f := { x.f with spad := { x.f.spad with wb := rest, err := y.f.spad.err } } }
      ∧ ∀ j, sget 0 y.f.spad.err j = if j = w then 0 else sget 0 x.f.spad.err j)
    ∧ (∀ i, i < 16 → x.enabled 0 = true → x.f.exc.l2.occ = false → x.f.exc.l2double = false → (x.th 0).stop = 0 →
        (x.th 0).stepping = false → x.f.exc.pend.getLsbD i = true → (∀ j, j < i → x.f.exc.pend.getLsbD j = false) →
      Stepped (.asyncCauseEntry c) s c fun x y =>
        let v := y.f.exc.l2
        v.occ = true ∧ v.async = true ∧ v.spc = (x.th 0).pc ∧ v.sflags = (x.th 0).flags ∧ v.cause.toNat = i ∧ v.thread = 0
        ∧ v.fromLevel = x.f.exc.level ∧ v.sinfo = sget 0 x.f.exc.pinfo i ∧ v.saddr = sget 0 x.f.exc.paddr i ∧ v.sprog = (x.th 0).prog
        ∧ v.scode = (x.th 0).rc 15
        ∧ y.f.exc.level = 2 ∧ (∀ j, y.f.exc.pend.getLsbD j = (x.f.exc.pend.getLsbD j && decide (j ≠ i))) ∧ y.f.exc.l1 = x.f.exc.l1
        ∧ (1 ≤ i → vectored (y.th 0) (x.th 0) (0x100 + 16 * (i - 1)) (sget {} x.f.exc.slots 1)) ∧ ∀ u, u ≠ 0 → y.th u = x.th u)
    ∧ (x.f.exc.pend = 0 → Stepped (.asyncCauseEntry c) s c fun x y => y = x)
    ∧ (∀ f, t ≠ 0 → x.l1Free = true → x.f.exc.l2double = false → x.asyncDue = none → (x.th 0).stepping = false →
        (x.th t.val).saveWait = some f →
        (∀ v : Fin 4, v ≠ 0 → ∀ g, (x.th v.val).saveWait = some g → f.cause < g.cause ∨ (f.cause = g.cause ∧ t ≤ v)) →
      Stepped (.waitingFaultEntry c) s c fun x y =>
        savedBy y.f.exc.l1 f (x.th t.val) t.val 0 ∧ y.f.exc.l1.sretPc = (x.th 0).pc
        ∧ y.f.exc = { x.f.exc with l1 := y.f.exc.l1, level := 1 }
        ∧ (1 ≤ f.cause.toNat → vectored (y.th 0) (x.th 0) (16 * (f.cause.toNat - 1)) (sget {} x.f.exc.slots 0))
        ∧ y.th t.val = { x.th t.val with faultHeld := true, saveWait := none, prog := {} }
        ∧ ∀ v, v ≠ 0 → v ≠ t.val → y.th v = x.th v)
    ∧ (x.f.exc.l1.occ = true → Stepped (.waitingFaultEntry c) s c fun x y => y = x)
    ∧ (∀ r rest, (x.th t.val).relq = r :: rest →
        let z := x.modTh t.val fun th => { th with relq := rest }
        let acked := (∀ i ∈ r.rw, ∀ o ∈ x.f.win.rwOut, o.id ≠ i) ∧ ∀ p ∈ r.wr, ∀ a ∈ (x.str p.1).unacked, a.1 ≠ p.2
        (¬ acked → Stepped (.releaseTakesEffect c t) s c fun x y => y = x)
        ∧ (acked → (∀ p, r.act = .pkt p → Stepped (.releaseTakesEffect c t) s c fun _ y => y = z.sendPkt p)
          ∧ (∀ id, r.act = .pool id → Stepped (.releaseTakesEffect c t) s c fun x y =>
              y = z.setPool (x.f.ch.pool.map fun m => if m.id = id then { m with held := false } else m))
          ∧ (∀ k n, r.act = .kadd k n → Stepped (.releaseTakesEffect c t) s c fun x y =>
              (∀ j, y.k j = if j = k.toNat then
                { val := (x.k j).val + n.setWidth 64, kind := 1, thread := BitVec.ofNat 2 t.val, ep := 0, core := BitVec.ofNat 18 c } else x.k j)
              ∧ y.th t.val = z.th t.val ∧ (∀ v, v ≠ t.val → y.th v = x.th v)
              ∧ (n = 0 → y.t = x.t)
              ∧ (n ≠ 0 → y.t.outq.length = x.t.outq.length
                  + ((List.range 16).filter fun i => (x.iwin i).en && decide ((x.iwin i).cntr = k)).length))))
    ∧ (∀ st, x.t.qwDue = some st → Stepped (.quiescentWaitTrip c) s c fun x y =>
        y.f = (x.raiseAsync 12 (st.setWidth 32) 0).f ∧ y.t = { x.t with qwDue := none, cnt := y.t.cnt }
        ∧ ∀ j, sget 0 y.t.cnt j = sget 0 x.t.cnt j + if j = cntChan 9 then 1 else 0)
    ∧ (x.t.qwDue = none → Stepped (.quiescentWaitTrip c) s c fun x y => y = x)

/-- The oldest on-chip token of context k in a queue: its place and the token. -/
def oldestOf (q : TQueue) (k : BitVec 2) (j : Nat) (x : Token) : Prop :=
  q.toks[j]? = some x ∧ x.ctx = k ∧ ∀ i y, i < j → q.toks[i]? = some y → y.ctx ≠ k

/-- R232, R233, R240, R244, R245, R247: a firing of the lowest ready trigger pops from each queue of its mask the oldest token of the current
context into V(28 + q) and G(24 + q), sets the PC to 4 × ENTRY and returns the credit; a pending switch whose time has come sets the
context, FLUSH discarding the old context's tokens, and counts; the stall monitor's trip sets STALLED and raises cause 9 with a notice.
Readings and choices of the model it rests on: log 31. -/
def Obligations.FiringSwitchAndStallRows : Prop :=
  ∀ (s : State) (c : Nat),
    let x := s.core c
    let old := x.f.st.curCtx
    (∀ i, i < 8 → x.f.st.run = true → x.standWaits = true → x.switchReady = false → x.triggerReady i = true →
        (∀ j, j < i → x.triggerReady j = false) →
      let word := x.f.st.trigger i
      let mask := word.toNat % 16
      Stepped (.firing c) s c fun x y =>
        (∀ q j tok, q < 4 → mask.testBit q = true → oldestOf (x.tq q) old j tok →
          y.tq q = { x.tq q with toks := (x.tq q).toks.eraseIdx j }
          ∧ (y.th 1).rv (BitVec.ofNat 5 (28 + q)) = BitVec.ofNat 512 (natOfBytes tok.data)
          ∧ (y.th 1).rg (BitVec.ofNat 5 (24 + q)) = BitVec.ofNat 32 tok.data.length)
        ∧ (∀ q, mask.testBit q = false → y.tq q = x.tq q)
        ∧ (∀ r : BitVec 5, (∀ q, q < 4 → mask.testBit q = true → r.toNat ≠ 28 + q) → (y.th 1).rv r = (x.th 1).rv r)
        ∧ (∀ r : BitVec 5, (∀ q, q < 4 → mask.testBit q = true → r.toNat ≠ 24 + q) → (y.th 1).rg r = (x.th 1).rg r)
        ∧ (y.th 1).pc.toNat = 4 * (word.toNat / 2 ^ 16 % 2 ^ 7) ∧ (y.th 1).firing = true ∧ (∀ v, v ≠ 1 → y.th v = x.th v)
        ∧ y.t.outq.length = x.t.outq.length + ((List.range 4).filter fun q => mask.testBit q).length
        ∧ (∀ j, sget 0 y.t.cnt j = sget 0 x.t.cnt j + if j = cntStand 0 then 1 else 0) ∧ y.t.stallCnt = 0
        ∧ y.f = { x.f with thr := y.f.thr, st := { x.f.st with tq := y.f.st.tq } })
    ∧ (x.firingOf = none → Stepped (.firing c) s c fun x y => y = x)
    ∧ (let due := x.f.st.swPend = true ∧ (x.th 1).firing = false
        ∧ (x.f.st.swDisp ≠ 0 ∨ x.f.st.swCtx = old ∨ ∀ q, q < 4 → (x.tq q).ctxOcc old.toNat = 0)
      (due → Stepped (.contextSwitch c) s c fun x y =>
        y.f.st = { x.f.st with curCtx := x.f.st.swCtx, swPend := false, tq := y.f.st.tq }
        ∧ (x.f.st.swDisp ≠ 2 → (∀ q, y.tq q = x.tq q) ∧ y.t.outq = x.t.outq)
        ∧ (x.f.st.swDisp = 2 → ∀ q, q < 4 → y.tq q = { x.tq q with
            toks := (x.tq q).toks.filter fun k => decide (k.ctx ≠ old)
            ext := (x.tq q).ext.map fun k => if k.ctx = old then { k with flush := true } else k })
        ∧ sget 0 y.t.cnt (cntStand 8) = sget 0 x.t.cnt (cntStand 8) + 1 ∧ y.f = { x.f with st := y.f.st })
      ∧ (¬ due → Stepped (.contextSwitch c) s c fun x y => y = x))
    ∧ (coreOk c = true → s.gstate c = 1 → x.t.reqs = [] → x.t.stallDue = true → Completes (.stallTrip c) s fun u => OnlyCore s u c
        ∧ (u.core c).f = { (x.raiseAsync 9 1 0).f with st := { x.f.st with stalled := true } }
        ∧ (u.core c).t = { x.t with stallDue := false, cnt := (u.core c).t.cnt, notices := x.t.notices ++ [.stall] }
        ∧ ∀ j, sget 0 (u.core c).t.cnt j = sget 0 x.t.cnt j + if j = cntStand 10 then 1 else 0)
    ∧ (coreOk c = true → x.t.stallDue = false → Keeps (.stallTrip c) s)

/-- Whether a packet is a DMA access (R364). -/
def Sys2Proof.Machine.Packet.isDma (p : Packet) : Bool :=
  match p.body with
  | .dread .. => true
  | .dwrite .. => true
  | _ => false

/-- R199 to R201, R241, R312, R315, R318: a refill moves the oldest extension token of the lowest queue with room on chip; the stream whose turn
it is issues its next request, a read of its chunk or a write of its slot's bytes, on the route to its port; a grove all of whose cores are
idle long enough is gated; a delivery held there wakes it, each core counting the wake; and the deliveries held then land in order.
Readings and choices of the model it rests on: log 17, 38. -/
def Obligations.RefillStreamIssueAndGatingRows : Prop :=
  ∀ (s : State) (c g : Nat),
    let x := s.core c
    (∀ i tok rest, i < 4 → (x.tq i).toks.length < 16 → (x.tq i).ext = tok :: rest → tok.flush = false →
        (∀ j, j < i → 16 ≤ (x.tq j).toks.length ∨ (x.tq j).ext = []) →
        x.f.spad.firstUe (wordsOf ((x.tq i).extBase.toNat * 1024 + 64 * tok.slot) tok.len) = none →
      Stepped (.extensionRefill c) s c fun x y => (∀ j, j ≠ i → y.tq j = x.tq j)
        ∧ y.tq i = { x.tq i with ext := rest, toks := (x.tq i).toks ++
            [⟨tok.ctx, tok.port, readBytes x.f.spad.mem ((x.tq i).extBase.toNat * 1024 + 64 * tok.slot) tok.len⟩] }
        ∧ y.t = { x.t with rused := true } ∧ y.f.spad.mem = x.f.spad.mem
        ∧ y.f = { x.f with spad := y.f.spad, st := { x.f.st with tq := y.f.st.tq } })
    ∧ (∀ i j p node a yx, x.turn = some (i, j, p) →
        let v := x.str i
        let part := v.part j p
        s.resolve c v.cm (v.chunkAddr j + part.1) = .inr (node, a, yx) →
        (v.dir = true → x.f.spad.firstUe (wordsOf (v.slotAddr j + part.1) part.2) = none) →
      Stepped (.streamRequestIssue c) s c fun x y =>
        (∀ k, k ≠ i → y.str k = x.str k) ∧ y.str i = { v.took j with out := v.out ++ [{ id := x.f.strId, chunk := j, part := p }] }
        ∧ y.f.strTurn.toNat = (i + 1) % 4 ∧ y.f.spad.mem = x.f.spad.mem
        ∧ y.t = { x.t with outq := y.t.outq, cnt := y.t.cnt }
        ∧ y.t.outq = x.t.outq ++ [mkPacket (.core c) node yx false (if v.dir then part.2 else 1)
            (if v.dir then .wreq x.f.strId i x.t.epoch a (readBytes x.f.spad.mem (v.slotAddr j + part.1) part.2)
             else .rreq x.f.strId i x.t.epoch a part.2)]
        ∧ ∀ k, sget 0 y.t.cnt k = sget 0 x.t.cnt k
            + if k = cntStr 0 then 1 else if k = cntStr 1 then BitVec.ofNat 64 part.2 else 0)
    ∧ (g < 750 → (s.grove g).state = 1 →
        ((∀ w ∈ groveCores g, (s.core w).t.idleEn = true ∧ 64 ≤ (s.core w).t.idleCnt) →
          Completes (.groveIdleGate g) s fun u => u = { s with groves := u.groves }
            ∧ ∀ h, u.grove h = if h = g then { s.grove g with gated := true } else s.grove h)
        ∧ ((∃ w ∈ groveCores g, (s.core w).t.idleEn = false ∨ (s.core w).t.idleCnt < 64) → Keeps (.groveIdleGate g) s))
    ∧ (g < 750 → (s.grove g).gated = true → (∃ w ∈ groveCores g, (s.core w).t.held ≠ []) →
        Completes (.groveWake g) s fun u => u = { s with groves := u.groves, cores := u.cores }
          ∧ (∀ h, u.grove h = if h = g then { s.grove g with gated := false } else s.grove h)
          ∧ ∀ w, (u.core w).f = (s.core w).f
            ∧ (u.core w).t = (if w ∈ groveCores g then { (s.core w).t with idleCnt := 0, cnt := (u.core w).t.cnt } else (s.core w).t)
            ∧ ∀ j, sget 0 (u.core w).t.cnt j = sget 0 (s.core w).t.cnt j + if w ∈ groveCores g ∧ j = cntSp 14 then 1 else 0)
    ∧ (coreOk c = true → s.gstate c = 1 → (∀ p ∈ x.t.held, p.isDma = false) →
        Completes (.gatedDeliveryLand c) s fun u => OnlyCore s u c
          ∧ u.core c = { x with t := { x.t with held := [], inbox := x.t.inbox ++ x.t.held } })

/-! ## Landings and departures (chapters 06, 10, 11, 13) -/

/-- Row i lands, at core c, the packet that has come first (R123, R259), where it is of the row's kind and has not to wait for the next die
cycle, and no DMA access, which would be served with it, comes next; where the grove runs the row completes, nothing but core c changes, and
rel p x y holds of the packet p, the core x without it and the core y after. -/
def Landed (i : Instr) (s : State) (c : Nat) (kind : Packet → Bool) (rel : Packet → Core → Core → Prop) : Prop :=
  ∀ p after, coreOk c = true → s.runs c = true → (s.core c).t.reqs = [] → (s.core c).t.rwait ≠ 1 →
    (s.core c).t.inbox = p :: after → kind p = true → (∀ q, after.head? = some q → q.isDma = false) →
    Completes i s fun u => OnlyCore s u c
      ∧ rel p { s.core c with t := { (s.core c).t with inbox := after, rwait := 0, rused := true } } (u.core c)

/-- The core y has sent one response more than x, of one flit, from core c to the source of packet p. -/
def Answered (c : Nat) (p : Packet) (b : Body) (x y : Core) : Prop :=
  ∃ r, y.t.outq = x.t.outq ++ [r] ∧ r.src = .core c ∧ r.dst = p.src ∧ r.body = b ∧ r.flits = 1
    ∧ ∀ w, p.src = .core w → r = x.packetTo c w true 1 b

/-- y is x with counter cnt raised by n, and perhaps packets sent; its core field is given. -/
def Counted1 (x y : Core) (cnt n : Nat) : Prop :=
  (∀ j, sget 0 y.t.cnt j = sget 0 x.t.cnt j + if j = cnt then BitVec.ofNat 64 n else 0) ∧ y.t = { x.t with cnt := y.t.cnt, outq := y.t.outq }

/-- The bytes bs stood in the scratchpad of y at a, and every other byte is that of x. -/
def Bytes (x y : Core) (a : Nat) (bs : List Byte) : Prop :=
  ∀ b, sget 0 y.f.spad.mem b = if a ≤ b ∧ b < a + bs.length then bs.getD (b - a) 0 else sget 0 x.f.spad.mem b

/-- R141, R142, R185, R186: a remote write that its window admits stores its bytes, a zero-run line its expansion with its map bit set or, of
zeros, only the bit cleared, and is acknowledged OK; any other is discarded, counted and acknowledged DISCARDED. An acknowledgement ends its
remote write, with RW_ERR where it was not OK. A credit message returns balance up to the limit and raises its entry's counter.
Readings and choices of the model it rests on: log 17. -/
def Obligations.RemoteWriteAndCreditLandings : Prop :=
  ∀ (s : State) (c : Nat),
    (∀ id win off data zr, Landed (.remoteWriteLand c) s c (fun p => match p.body with
        | .rwrite .. => true
        | _ => false) fun p x y => p.body = .rwrite id win off data zr → p.src = .core p.srcWord →
      let w := x.iwin win.toNat
      let lo := 256 * w.base.toNat
      let n := if zr.isSome then 64 else data.length
      let ok := w.en = true ∧ w.src.toNat = p.srcWord ∧ lo ≤ off.toNat ∧ off.toNat + n ≤ lo + 256 * w.len.toNat
        ∧ zr.isSome = x.f.sp.zrIn.getLsbD win.toNat
      let byte := 8 * (sget 0 x.f.sp.zmap win.toNat).toNat + (off.toNat - lo) / 64 / 8
      let bit := (off.toNat - lo) / 64 % 8
      y.f = { x.f with spad := y.f.spad, conf := y.f.conf }
      ∧ (¬ ok → Answered c p (.rwack id 1) x y ∧ y.f = x.f ∧ Counted1 x y (cntPerf 9) 1)
      ∧ (ok → zr = none → Answered c p (.rwack id 0) x y ∧ Bytes x y off.toNat data ∧ Counted1 x y 0 0)
      ∧ (∀ wide, ok → zr = some wide → x.f.spad.firstUe [byte / 8] = none →
        Answered c p (.rwack id 0) x y
        ∧ (natOfBytes (data.take 8) = 0 → Counted1 x y (cntSp 7) 1
          ∧ (∀ b, b ≠ byte → sget 0 y.f.spad.mem b = sget 0 x.f.spad.mem b)
          ∧ ∀ j, j < 8 → (sget 0 y.f.spad.mem byte).getLsbD j = ((sget 0 x.f.spad.mem byte).getLsbD j && decide (j ≠ bit)))
        ∧ (natOfBytes (data.take 8) ≠ 0 → Counted1 x y (cntSp 6) 1
          ∧ (∀ j, j < 64 → sget 0 y.f.spad.mem (off.toNat + j) = (zrExpand (if wide then 2 else 1) data).getD j 0 ∨ (zrExpand (if wide then 2 else 1) data).length ≤ j)
          ∧ ((byte < off.toNat ∨ off.toNat + 64 ≤ byte) → ∀ j, j < 8 →
              (sget 0 y.f.spad.mem byte).getLsbD j = ((sget 0 x.f.spad.mem byte).getLsbD j || decide (j = bit)))
          ∧ ∀ b, b ≠ byte → (b < off.toNat ∨ off.toNat + 64 ≤ b) → sget 0 y.f.spad.mem b = sget 0 x.f.spad.mem b)))
    ∧ (∀ id st o, Landed (.remoteWriteAckLand c) s c (fun p => match p.body with
        | .rwack .. => true
        | _ => false) fun p x y => p.body = .rwack id st → x.f.win.rwOut.find? (fun r => decide (r.id = id)) = some o →
      y.t = x.t ∧ y.f = { x.f with win := { x.f.win with rwOut := x.f.win.rwOut.filter (fun r => decide (r.id ≠ id)), ocred := y.f.win.ocred } }
      ∧ ∀ e, y.ocred e = if e = o.entry.toNat ∧ st ≠ 0 ∧ (x.ocred e).en = true then { x.ocred e with rwErr := true } else x.ocred e)
    ∧ (∀ win n, Landed (.creditMessageLand c) s c (fun p => match p.body with
        | .credit .. => true
        | _ => false) fun p x y => p.body = .credit win n →
      (x.creditFor p.srcWord win.toNat = none → y = x)
      ∧ ∀ e, x.creditFor p.srcWord win.toNat = some e →
        let o := x.ocred e
        let limit := 256 * o.limit.toNat
        let sum := o.bal.toNat + 256 * n.toNat
        y.t = x.t ∧ y.f = { x.f with win := { x.f.win with ocred := y.f.win.ocred }, ch := { x.f.ch with k := y.f.ch.k } }
        ∧ (∀ j, y.ocred j = if j = e then { o with bal := BitVec.ofNat 18 (min sum limit), credOvf := o.credOvf || decide (limit < sum) }
            else x.ocred j)
        ∧ ∀ j, y.k j = if j = o.cntr.toNat then
            { val := (x.k j).val + n.setWidth 64, kind := 3, core := BitVec.ofNat 18 p.srcWord } else x.k j)

/-- The stream v aborted by a fault of request r: no request is issued any more, and of the committed chunks only those with a request in flight
are waited for (R135, R321). -/
def aborted (v : Stream) (r : SReq) (fault : BitVec 4) : Stream :=
  { v with st := 4, faultChunk := BitVec.ofNat 24 r.chunk, reason := fault, notified := false, redo := []
           unacked := v.unacked.filter fun p => v.out.any fun q => decide (q.chunk = p.1) }

/-- R238, R240 to R242, R289, R316, R318, R320, R321: a token goes to the end of its enabled queue, on chip or, once no refill is due, in the
extension in scratchpad, and is otherwise discarded with its credit returned; token credit raises the balance of an enabled port up to its limit, CLEARED raising cause 9;
a stream's reply stores its bytes in their slot, whole or piece by piece, its acknowledgement ends its request, and a fault of either aborts a stream that is not
RESUMABLE; an answer that belongs to no outstanding request has no effect.
Readings and choices of the model it rests on: log 17, 32, 33. -/
def Obligations.TokenAndStreamLandings : Prop :=
  ∀ (s : State) (c : Nat),
    (∀ port q ctx data, Landed (.tokenLand c) s c (fun p => match p.body with
        | .token .. => true
        | _ => false) fun p x y => p.body = .token port q ctx data →
      let i := q.toNat
      let v := x.tq i
      let ok := x.f.st.mode = true ∧ v.en = true ∧ v.src.toNat = p.srcWord ∧ x.f.st.ctxValid.getLsbD ctx.toNat = true
        ∧ v.total < 16 + 16 * v.extUnits.toNat
      let to_ := v.extBase.toNat * 1024 + 64 * v.extNext
      let spills := 16 ≤ v.toks.length ∨ v.ext ≠ []
      let due := ∃ j, j < 4 ∧ (x.tq j).toks.length < 16 ∧ (x.tq j).ext ≠ []
      ((ok → spills → ¬ due) →
        (∀ j, j ≠ i → y.tq j = x.tq j) ∧ y.f = { x.f with spad := y.f.spad, conf := y.f.conf, st := { x.f.st with tq := y.f.st.tq } })
      ∧ (¬ ok → y.f = x.f ∧ y.t.outq.length = x.t.outq.length + 1
        ∧ (∀ r, y.t.outq.getLast? = some r → r.dst = .core p.srcWord ∧ r.body = .tcredit port 1 false)
        ∧ ∀ j, sget 0 y.t.cnt j = sget 0 x.t.cnt j + if j = cntStand 6 then 1 else 0)
      ∧ (ok → v.toks.length < 16 → v.ext = [] → y.f.spad = x.f.spad ∧ y.t.outq = x.t.outq
        ∧ (y.tq i).toks = v.toks ++ [{ ctx := ctx, port := port, data := data }] ∧ (y.tq i).ext = [] ∧ (y.tq i).hwm.toNat = max v.hwm.toNat (v.total + 1))
      ∧ (ok → spills → ¬ due → Bytes x y to_ data ∧ y.t.outq = x.t.outq ∧ (y.tq i).toks = v.toks
        ∧ (y.tq i).ext = v.ext ++ [{ slot := v.extNext, ctx := ctx, port := port, len := data.length }]
        ∧ (y.tq i).extNext = (v.extNext + 1) % (16 * v.extUnits.toNat)))
    ∧ (∀ port n clr, Landed (.tokenCreditLand c) s c (fun p => match p.body with
        | .tcredit .. => true
        | _ => false) fun p x y => p.body = .tcredit port n clr →
      let v := x.tport port.toNat
      (v.en = false → y = x)
      ∧ (v.en = true → y.t.stallCnt = 0 ∧ y.t.outq = x.t.outq
        ∧ (∀ j, y.tport j = if j = port.toNat then { v with
            bal := BitVec.ofNat 10 (min (v.bal.toNat + n) v.limit.toNat), credOvf := v.credOvf || decide (v.limit.toNat < v.bal.toNat + n)
            errCleared := v.errCleared || clr } else x.tport j)
        ∧ y.f.exc = if clr then (x.raiseAsync 9 (BitVec.ofNat 32 (2 + 16 * port.toNat)) 0).f.exc else x.f.exc))
    ∧ (∀ id st ep o data last, Landed (.streamReplyLand c) s c (fun p => match p.body with
        | .rrep .. => true
        | .rpiece .. => true
        | _ => false) fun p x y => p.body = .rpiece id st ep o data last →
      ((ep ≠ x.t.epoch ∨ ∀ r ∈ (x.str st).out, r.id ≠ id) → y = x)
      ∧ ∀ r, ep = x.t.epoch → (x.str st).out.find? (fun r => decide (r.id = id)) = some r → (x.str st).st ≠ 4 → r.stale = false →
        (∀ j, j ≠ st → y.str j = x.str j) ∧ y.t = x.t
        ∧ y.str st = (if last then { x.str st with out := (x.str st).out.filter fun r => decide (r.id ≠ id) } else x.str st)
        ∧ Bytes x y ((x.str st).slotAddr r.chunk + ((x.str st).part r.chunk r.part).1 + o) data)
    ∧ (∀ id st ep fault data, Landed (.streamReplyLand c) s c (fun p => match p.body with
        | .rrep .. => true
        | .rpiece .. => true
        | _ => false) fun p x y => p.body = .rrep id st ep fault data →
      ((ep ≠ x.t.epoch ∨ ∀ r ∈ (x.str st).out, r.id ≠ id) → y = x)
      ∧ ∀ r, ep = x.t.epoch → (x.str st).out.find? (fun r => decide (r.id = id)) = some r → (x.str st).st ≠ 4 → r.stale = false →
        let v := { x.str st with out := (x.str st).out.filter fun r => decide (r.id ≠ id) }
        (∀ j, j ≠ st → y.str j = x.str j) ∧ y.t.outq = x.t.outq
        ∧ (fault = 0 → y.str st = v ∧ Bytes x y ((x.str st).slotAddr r.chunk + ((x.str st).part r.chunk r.part).1) data ∧ y.t = x.t)
        ∧ (fault ≠ 0 → v.resumable = false → y.f.spad = x.f.spad ∧ y.str st = aborted v r fault
          ∧ sget 0 y.t.cnt (cntStr 3) = sget 0 x.t.cnt (cntStr 3) + 1))
    ∧ (∀ id st ep fault, Landed (.streamWriteAckLand c) s c (fun p => match p.body with
        | .wack .. => true
        | _ => false) fun p x y => p.body = .wack id st ep fault →
      ((ep ≠ x.t.epoch ∨ ∀ r ∈ (x.str st).out, r.id ≠ id) → y = x)
      ∧ ∀ r, ep = x.t.epoch → (x.str st).out.find? (fun r => decide (r.id = id)) = some r → (x.str st).st ≠ 4 → r.stale = false →
        (x.str st).dir = true →
        let v := { x.str st with out := (x.str st).out.filter fun r => decide (r.id ≠ id) }
        (∀ j, j ≠ st → y.str j = x.str j) ∧ y.t.outq = x.t.outq ∧ y.f.spad = x.f.spad
        ∧ (fault = 0 → y.t = x.t ∧ y.str st = { v with
            unacked := if r.chunk < v.iss ∧ (∀ q ∈ v.out, q.chunk ≠ r.chunk) ∧ (∀ q ∈ v.redo, q.1 ≠ r.chunk)
              then v.unacked.filter fun a => decide (a.1 ≠ r.chunk) else v.unacked })
        ∧ (fault ≠ 0 → v.resumable = false → y.str st = aborted v r fault))

/-- R194 to R196, R261 to R264, R267 to R270, R274: a message with the number its enabled half expects goes to its queue, is acknowledged, and on a
full queue is refused with NACK; of a token endpoint, an item that has exited is accepted and discarded, EXIT clears its live bit and ARM
sets it; a signal
raises the bound counter; a message of another source is rejected, of another number ignored. ACK frees the pool entry, NACK begins
recovery, RESUME marks what to send again, REJECT frees and sets its error. A due RESUME leaves; the pool's next message leaves, resends
first.
Readings and choices of the model it rests on: log 17, 33. -/
def Obligations.ChannelLandingsAndDepartures : Prop :=
  ∀ (s : State) (c : Nat),
    let land := fun (i : Instr) (token : Bool) => ∀ se de seq tag data, Landed i s c (fun p => match p.body with
        | .msg _ e _ _ _ => decide ((s.core c).f.sp.tokenEp.getLsbD e.toNat = token)
        | .sig .. => !token
        | _ => false) fun p x y => p.body = .msg se de seq tag data →
      let h := x.chIn de.toNat
      let from_ := h.en = true ∧ h.src.toNat = p.srcWord ∧ h.srcEp = se
      let head := natOfBytes (data.take 8)
      let item := head / 2 ^ 10 % 64
      let kind := head / 2 ^ 8 % 4
      let live := x.f.sp.live.getLsbD item
      let taken := { h with seqExp := h.seqExp + 1, gap := false, resumeSent := false, resumeDue := false }
      let queued := y.chIn de.toNat = { taken with q := h.q ++ [⟨h.head, data.length, seq⟩], head := h.head + 1 }
        ∧ Bytes x y (512 * h.qbase.toNat + 64 * h.head.toNat) data ∧ Answered c p (.ack se seq tag) x y
      (∀ j, j ≠ de.toNat → y.chIn j = x.chIn j)
      ∧ (¬ from_ → y.f = x.f ∧ Answered c p (.reject se seq tag .rejected) x y ∧ Counted1 x y (cntChan 7) 1)
      ∧ (from_ → seq ≠ h.seqExp → y.f = x.f ∧ y.t.outq = x.t.outq ∧ Counted1 x y (cntChan 6) 1)
      ∧ (from_ → seq = h.seqExp → 8 ≤ h.q.length → Answered c p (.nack se seq tag) x y ∧ Counted1 x y (cntChan 3) 1
          ∧ y.chIn de.toNat = { h with gap := true, resumeSent := false, gapTag := tag, gapSrc := some p.src } ∧ y.f.spad = x.f.spad
          ∧ y.f.sp = x.f.sp)
      ∧ (from_ → seq = h.seqExp → h.q.length < 8 → (token = false ∨ (kind ≤ 1 ∧ live = true)) →
        queued ∧ Counted1 x y (cntChan 1) 1 ∧ y.f.sp = x.f.sp)
      ∧ (from_ → seq = h.seqExp → h.q.length < 8 → token = true →
        ((kind ≠ 3 ∧ live = false) ∨ (kind = 3 ∧ live = true) →
          y.chIn de.toNat = taken ∧ y.f.sp = x.f.sp ∧ Answered c p (.ack se seq tag) x y ∧ Counted1 x y (cntSp 13) 1)
        ∧ (kind = 2 → live = true → x.f.sp.fwd.length < 4 → queued
          ∧ ∀ j, j < 64 → y.f.sp.live.getLsbD j = (x.f.sp.live.getLsbD j && decide (j ≠ item)))
        ∧ (kind = 3 → live = false → x.f.sp.fwd.length < 4 → queued
          ∧ ∀ j, j < 64 → y.f.sp.live.getLsbD j = (x.f.sp.live.getLsbD j || decide (j = item))))
    land (.tokenMessageLand c) true ∧ land (.channelMessageLand c) false
    ∧ (∀ se de seq tag n th, Landed (.channelMessageLand c) s c (fun p => match p.body with
        | .msg _ e _ _ _ => !(s.core c).f.sp.tokenEp.getLsbD e.toNat
        | .sig .. => true
        | _ => false) fun p x y => p.body = .sig se de seq tag n th →
      let h := x.chIn de.toNat
      h.en = true → h.src.toNat = p.srcWord → h.srcEp = se → seq = h.seqExp → h.sigEn = true →
      Answered c p (.ack se seq tag) x y ∧ Counted1 x y (cntChan 2) 1
      ∧ (∀ j, y.k j = if j = h.sigCntr.toNat then
          { val := (x.k j).val + n.setWidth 64, kind := 2, thread := th, ep := se, core := BitVec.ofNat 18 p.srcWord } else x.k j)
      ∧ y.f = { x.f with ch := { x.f.ch with inn := y.f.ch.inn, k := y.f.ch.k } })
    ∧ (∀ ep seq tag why, let half := fun (x : Core) => x.chOut ep.toNat
      Landed (.ackLand c) s c (fun p => match p.body with
        | .ack .. => true
        | _ => false) (fun p x y => p.body = .ack ep seq tag →
        y = if (half x).tag = tag then x.setPool (x.f.ch.pool.filter fun m => m.dbg || !decide (m.ep = ep ∧ m.seq = seq)) else x)
      ∧ Landed (.nackLand c) s c (fun p => match p.body with
        | .nack .. => true
        | _ => false) (fun p x y => p.body = .nack ep seq tag →
        ((half x).tag ≠ tag → y = x)
        ∧ ((half x).tag = tag → (∀ j, y.chOut j = if j = ep.toNat then { half x with recovery := true } else x.chOut j)
          ∧ y.f = { x.f with ch := { x.f.ch with out := y.f.ch.out } } ∧ Counted1 x y (cntChan 4) 1))
      ∧ Landed (.resumeLand c) s c (fun p => match p.body with
        | .resume .. => true
        | _ => false) (fun p x y => p.body = .resume ep seq tag →
        let back := fun (m : PoolMsg) => !m.dbg && decide (m.ep = ep) && m.sent
          && decide (((half x).seqNext - m.seq).toNat ≤ ((half x).seqNext - seq).toNat)
        ((half x).tag ≠ tag → y = x)
        ∧ ((half x).tag = tag → y.t = x.t ∧ y.f.ch.pool = x.f.ch.pool.map (fun m => if back m then { m with resend := true } else m)
          ∧ ∀ j, y.chOut j = if j = ep.toNat ∧ x.f.ch.pool.any back = false then { half x with recovery := false } else x.chOut j))
      ∧ Landed (.rejectLand c) s c (fun p => match p.body with
        | .reject .. => true
        | _ => false) (fun p x y => p.body = .reject ep seq tag why →
        ((half x).tag ≠ tag → y = x)
        ∧ ((half x).tag = tag → y.t = x.t ∧ y.f.ch.pool = x.f.ch.pool.filter (fun m => m.dbg || !decide (m.ep = ep ∧ m.seq = seq))
          ∧ ∀ j, y.chOut j = if j = ep.toNat then { half x with
              errRej := (half x).errRej || decide (why = .rejected), errClr := (half x).errClr || decide (why = .cleared)
              errUn := (half x).errUn || decide (why = .unreachable) } else x.chOut j)))
    ∧ (∀ i w, (∀ j, j < i → ((s.core c).chIn j).resumeDue = false) → i < 32 → ((s.core c).chIn i).resumeDue = true →
        ((s.core c).chIn i).gapSrc = some (.core w) → Stepped (.resumeSend c) s c fun x y =>
      y.t.outq = x.t.outq ++ [x.packetTo c w true 1 (.resume (x.chIn i).srcEp (x.chIn i).seqExp (x.chIn i).gapTag)]
      ∧ ∀ j, y.chIn j = if j = i then { x.chIn i with resumeDue := false } else x.chIn j)
    ∧ (∀ m, (s.core c).f.sp.fwd = [] →
        ((s.core c).f.ch.pool.find? (fun m => m.resend) = some m
          ∨ ((s.core c).f.ch.pool.any (fun m => m.resend) = false ∧ (s.core c).f.ch.pool.head? = some m ∧ m.dbg = false ∧ m.sent = false
            ∧ m.held = false ∧ ((s.core c).chOut m.ep.toNat).recovery = false)) →
        ((s.core c).chOut m.ep.toNat).ext = false → Stepped (.sendPoolDepart c) s c fun x y =>
      let o := x.chOut m.ep.toNat
      y.t.outq = x.t.outq ++ [mkPacket (.core c) (.core o.tgt.toNat) (decide (o.order = 1)) false (if m.sig.isSome then 8 else m.data.length)
        (match m.sig with
         | some n => .sig m.ep o.tgtEp m.seq o.tag n m.thread
         | none => .msg m.ep o.tgtEp m.seq o.tag m.data)]
      ∧ y.f.ch.pool = x.f.ch.pool.map (fun z => if z.id = m.id then { z with sent := true, resend := false } else z)
      ∧ ∀ j, sget 0 y.t.cnt j = sget 0 x.t.cnt j + if j = (if m.resend then cntChan 5 else cntChan 0) then 1 else 0)

/-! ## The array, its checks, notices and debug records (chapters 07, 18, 21) -/

/-- An ERROR_REPORT of a kind about word a is the last event that u has posted after those of s (Table 18.6). -/
def Reported (s u : State) (kind a : Nat) : Prop :=
  ∃ r, u.lead.toPost = s.lead.toPost ++ [.record r] ∧ r.type = 0x21 ∧ r.len = 3 ∧ r.body.head? = some (BitVec.ofNat 8 kind)
    ∧ natOfBytes ((r.body.drop 4).take 4) = a

/-- R43, R158, R159, R161, R168, R170, R431 to R434, R436: the oldest accepted MMA starts when the array is free, copying its operands, with Z its
accumulators from zero; it finishes with the result in its accumulators, for a dense integer MMA the exact sum modulo 2^32, and leaves the
queue; a sampled one's check runs, is compared, and when the sums differ is repeated, the repeat deciding a transient outcome, cause 10 at
the origin with a report, or a permanent one, which loses the core.
Readings and choices of the model it rests on: log 15, 55. -/
def Obligations.MatrixArrayAndCheckRows : Prop :=
  ∀ (s : State) (c : Nat) (flip flip2 : BitVec 4096) (cycles : Nat),
    let x := s.core c
    (∀ j rest, x.f.mx.queue = j :: rest → j.started = false → x.arrayFree = true →
        (∀ b, x.f.mx.check = some b → b.phase ≠ .ready) → s.repeating c = false →
        (∀ i, i < 8 → (x.tile i).err = []) →
        let started := fun (y : Core) => ∃ j' : MmaJob, y.f.mx.queue = j' :: rest
          ∧ j' = { j with
            started := true, a := x.tile j.ta.toNat, b := x.tile j.tb.toNat, m := if j.sp = 0 then {} else x.tile j.tm.toNat, poisoned := false
            start0 := (y.acc j.acc.toNat).data, start1 := if j.sp = 2 then (y.acc (j.acc.toNat + 1)).data else 0 }
          ∧ (∀ i, y.acc i = if i = j.acc.toNat ∨ (j.sp = 2 ∧ i = j.acc.toNat + 1) then { x.acc i with
                data := if j.z then 0 else (x.acc i).data, ovf := !j.z && (x.acc i).ovf, poison := !j.z && (x.acc i).poison, inUse := true }
              else x.acc i)
          ∧ y.f.mx.tiles = x.f.mx.tiles ∧ y.f = { x.f with mx := y.f.mx }
        (j.sampled = false → Stepped (.mmaStart c) s c fun _ y => started y)
        ∧ (∀ b, coreOk c = true → s.runs c = true → x.t.reqs = [] → j.sampled = true → checkerOf c ≠ c → (s.core (checkerOf c)).f.mx.check = some b →
            b.origin = c → b.job.n = j.n → Completes (.mmaStart c) s fun u => started (u.core c)
              ∧ ∃ j', (u.core c).f.mx.queue.head? = some j'
                ∧ (u.core (checkerOf c)).f.mx.check = some { b with job := j', phase := .ready }))
    ∧ (∀ j rest, x.f.mx.queue = j :: rest → j.started = true → j.sampled = false → Stepped (.mmaFinish c flip) s c fun x y =>
        y.f.mx.queue = rest ∧ y.f = { x.f with mx := { x.f.mx with queue := rest, accs := y.f.mx.accs } }
        ∧ (∀ i, i ≠ j.acc.toNat → ¬ (j.sp = 2 ∧ i = j.acc.toNat + 1) → y.acc i = x.acc i)
        ∧ y.acc j.acc.toNat = { x.acc j.acc.toNat with
            data := (mmaResult j false).1 ^^^ lane 2048 flip 0, ovf := (x.acc j.acc.toNat).ovf || (mmaResult j false).2 }
        ∧ (j.sp = 2 → y.acc (j.acc.toNat + 1) = { x.acc (j.acc.toNat + 1) with
            data := (mmaResult j true).1 ^^^ lane 2048 flip 1, ovf := (x.acc (j.acc.toNat + 1)).ovf || (mmaResult j true).2 })
        ∧ sget 0 y.t.cnt (cntPerf 10) = sget 0 x.t.cnt (cntPerf 10) + BitVec.ofNat 64 j.cycles)
    ∧ (∀ (j : MmaJob) m n, j.sp = 0 → j.cls = .int → m < 8 → n < 8 →
        lane 32 (mmaResult j false).1 (8 * m + n) = BitVec.ofInt 32
          (((List.range j.a.k).map fun k => j.a.elemInt m k * j.b.elemInt n k).foldl (· + ·) (lane 32 j.start0 (8 * m + n)).toInt))
    ∧ (∀ b, x.f.mx.check = some b → coreOk c = true → s.runs c = true →
        (b.phase = .ready → x.arrayFree = true → s.repeating c = false →
          exec (.checkWorkStart c) s = .next (s.setCore c (x.setCheck (some { b with phase := .running }))))
        ∧ (∀ o, b.phase = .running → b.sums = some o → b.origin ≠ c → Completes (.checkCompare c flip) s fun u =>
          u = { s with cores := u.cores } ∧ (∀ w, w ≠ c → w ≠ b.origin → u.core w = s.core w)
          ∧ (u.core c).f = (x.setCheck (if b.skip || b.ue || decide (o = b.job.sums flip) then none
              else some { b with phase := .repeating, csums := b.job.sums flip })).f
          ∧ sget 0 (u.core c).t.cnt (cntPerf 11) = sget 0 x.t.cnt (cntPerf 11) + BitVec.ofNat 64 b.job.cycles
          ∧ (u.core b.origin).t = (s.core b.origin).t
          ∧ ∀ i, sget 0 (u.core b.origin).f.mx.ccnt i = sget 0 (s.core b.origin).f.mx.ccnt i
              + if (i = 2 ∧ (b.skip || b.ue) = true) ∨ (i = 1 ∧ (b.skip || b.ue) = false ∧ o = b.job.sums flip) then 1 else 0)
        ∧ (∀ o, b.phase = .repeating → b.sums = some o → b.origin ≠ c → s.stewards (dieOf b.origin) = true → coreOk b.origin = true →
          let o2 := b.job.sums flip
          let c2 := b.job.sums flip2
          let second := o.1 = b.csums.1
          (o2 = c2 → Completes (.checkRepeatDone c flip flip2 cycles) s fun u =>
            let reason := if o ≠ o2 then 1 else 2
            let y := u.core b.origin
            u.core c = x.setCheck none ∧ Reported s u 6 b.origin
            ∧ y.f.exc = ((s.core b.origin).raiseAsync 10 (BitVec.ofNat 32 (reason + 16 * b.job.acc.toNat + if second then 64 else 0))
                (BitVec.ofNat 32 b.job.n)).f.exc
            ∧ y.f.mx.last.toNat = reason
            ∧ ∀ i, sget 0 y.f.mx.ccnt i = sget 0 (s.core b.origin).f.mx.ccnt i
                + if i = 4 then BitVec.ofNat 64 cycles else if i = 3 then 1 else 0)
          ∧ (o2 ≠ c2 → s.gstate b.origin = 1 → s.lead.tests = [] → s.loadedStands = [] →
            Completes (.checkRepeatDone c flip flip2 cycles) s fun u =>
              (u.grove (groveOf b.origin)).fence = true ∧ (u.core c).f.mx.check = none ∧ (u.core b.origin).f.mx.last = 3
              ∧ u.lead.tests = [{ grove := groveOf b.origin }] ∧ Reported s u 7 b.origin
              ∧ (rowOf b.origin, physPos ((s.grove (groveOf b.origin)).code (rowOf b.origin)).toNat (posOf b.origin))
                  ∈ (u.grove (groveOf b.origin)).retired)))

/-- R119, R129, R247, R298, R322, R354, R438, R481, R496: a notice reaches its steward, an uncorrectable word becoming an ERROR_REPORT, a stall one
STAND_STALL event for its stand, a halt a STREAM_HALT event; a debug record goes into the lead's backlog of 256 or is counted as lost; the
oldest debug request is performed and its reply written to its entry, its counter raised; a stall event is written to the event ring with a
record for each core of the stand.
Readings and choices of the model it rests on: log 11, 31, 56. -/
def Obligations.NoticeAndDebugRecordRows : Prop :=
  ∀ (s : State) (c : Nat), coreOk c = true →
    let x := s.core c
    let without := fun (rest : List Notice) => s.setCore c { x with t := { x.t with notices := rest } }
    (s.stewards (dieOf c) = true → ∀ n rest, x.t.notices = n :: rest →
      let row := Completes (.understoryNotice c) s
      (∀ a i, n = .l2 a i → exec (.understoryNotice c) s = .next (without rest))
      ∧ (∀ a, n = .spadUe a → row fun u => Reported s u 1 c ∧ u = { without rest with lead := u.lead })
      ∧ (n = .tileUe → row fun u => Reported s u 2 c ∧ u = { without rest with lead := u.lead })
      ∧ (∀ a, n = .ctxUe a → row fun u => Reported s u 3 c ∧ u = { without rest with lead := u.lead })
      ∧ (n = .l2double → s.standOf c = none → row fun u => Reported s u 8 c ∧ u = { without rest with lead := u.lead })
      ∧ (∀ k, n = .stall → s.standOf c = some k → (s.stand k).stallPosted = false → row fun u =>
          u.lead = { s.lead with toPost := s.lead.toPost ++ [.stall k c (s.stand k).cores none] }
          ∧ (∀ j, u.stand j = if j = k then { s.stand k with stallPosted := true } else s.stand j) ∧ u.core c = (without rest).core c)
      ∧ (∀ k, n = .stall → s.standOf c = some k → (s.stand k).stallPosted = true → exec (.understoryNotice c) s = .next (without rest))
      ∧ (∀ st j r a, n = .streamHalt st j r a → row fun u => u = { without rest with lead := u.lead }
          ∧ ∃ v, u.lead = { s.lead with toPost := s.lead.toPost ++ [.record v] } ∧ v.type = 0x13 ∧ v.len = 2)
      ∧ (n.isDebug = true →
          ((x.t.session = 0 ∨ s.dbgGrant c = true) → Completes (.debugRecordPost c) s fun u => u = { without rest with lead := u.lead }
            ∧ ∃ r, u.lead = (if s.lead.dbgLog.length < 256 then { s.lead with dbgLog := s.lead.dbgLog ++ [r] }
                else { s.lead with dbgLost := s.lead.dbgLost + 1 })
              ∧ r.type = (if n = .traceFull then 0x42 else 0x40) ∧ r.len = if n = .traceFull then 1 else 2)
          ∧ (x.t.session ≠ 0 → s.dbgGrant c = false → exec (.debugRecordPost c) s = .next (without rest))))
    ∧ (s.dieUp (dieOf c) = true → s.stewards (dieOf c) = false → ∀ n rest, x.t.notices = n :: rest → n.isDebug = false →
        (s.die (dieOf c)).queue.length < 1024 → Completes (.understoryNotice c) s fun u => u = { without rest with dies := u.dies }
          ∧ ∀ d, u.die d = if d = dieOf c then { s.die d with queue := (s.die d).queue ++ [.core c n] } else s.die d)
    ∧ (∀ r rest, x.f.dbg.reqs = r :: rest → s.runs c = true → (∀ m, x.f.ch.pool.find? (fun m => m.dbg) = some m → m.held = false) →
      let (status, value, s1) := s.debugAccess c r
      let z := s1.core c
      z.f.dbg.reqs = r :: rest → status < 256 → Completes (.debugReplyLand c) s fun u => OnlyCore s1 u c
        ∧ Bytes z (u.core c) (64 * z.f.dbg.replyBase.toNat + 8 * (r.n % 8))
            (bytesOfNat 4 (if r.write then 0 else value.toNat) ++ [BitVec.ofNat 8 status, 0, 0, 0])
        ∧ (∀ j, (u.core c).k j = if j = z.f.dbg.replyCntr.toNat then { z.k j with val := (z.k j).val + 1 } else z.k j)
        ∧ (u.core c).f.dbg = { z.f.dbg with reqs := rest }
        ∧ ∀ a b e, z.f.ch.pool = a ++ e :: b → e.dbg = true → (∀ v ∈ a, v.dbg = false) → (u.core c).f.ch.pool = a ++ b)
    ∧ (∀ n first cores rest, s.lead.backlog = .stall n first cores none :: rest → n < 4096 → s.events.en = true → s.events.irqEn = false →
        s.lead.lostNow = 0 →
      let r := s.events
      let k := 2 + 7 * cores.length
      r.tail + k < r.size → r.used + k ≤ r.size → Completes (.standStallPost n) s fun u =>
        u.lead = { s.lead with backlog := rest } ∧ ((∀ g, (s.grove g).gated = false) → u.cores = s.cores ∧ u.groves = s.groves)
        ∧ u.events = { r with tail := r.tail + k, used := r.used + k, since := r.since + cores.length + 1 }
        ∧ sget 0 u.hostMem (r.base.toNat + 16 * r.tail + 1) = 0x11
        ∧ (∀ i, i < cores.length → sget 0 u.hostMem (r.base.toNat + 16 * (r.tail + 2 + 7 * i) + 1) = 0x12)
        ∧ u = { s with lead := u.lead, events := u.events, hostMem := u.hostMem, cores := u.cores, groves := u.groves, free := u.free })

/-! ## The mesh, memory ports and the host window (chapters 12 to 14) -/

/-- R284, R285, R288, R290 to R292: a router with one flit moves it to the next router of its route, or at a seam into the crossing queue, or to
its core, where it waits to land, or into the queue toward a memory port; the output's pointer passes the input served; and a crossing takes the oldest flit of its queue into the
router behind it.
Readings and choices of the model it rests on: log 6, 17. -/
def Obligations.MeshRowsMoveFlits : Prop :=
  ∀ (s : State) (c key side v : Nat) (f : Flit) (rest : List Flit), coreOk c = true → s.dieUp (dieOf c) = true →
    (s.grove (groveOf c)).unavail = false →
    let r := (s.core c).t.router
    let vc := f.pkt.vc.toNat
    let at_ := f.pkt.exit
    let alone := key < 28 ∧ sget [] r.inq key = f :: rest ∧ (∀ k, k ≠ key → sget [] r.inq k = []) ∧ (∀ o, sget none r.hold o = none)
      ∧ f.idx = 0 ∧ f.pkt.flits = 1 ∧ (s.core c).t.outq = [] ∧ (∀ k, sget [] r.attSrc k = []) ∧ (∀ k, sget [] r.engSrc k = [])
      ∧ (∀ k, sget [] r.attIn k = []) ∧ (∀ k, sget [] r.attOut k = [])
    let left := fun (u : State) (o : Nat) => (∀ k, sget [] (u.core c).t.router.inq k = if k = key then rest else [])
      ∧ sget 0 (u.core c).t.router.rr o = key / 4 + 1 ∧ (∀ k, sget none (u.core c).t.router.hold k = none)
      ∧ (u.core c).f = (s.core c).f ∧ u = { s with cores := u.cores }
    (alone → nextSide c at_.1 f.pkt.yx = some side → neighbour c side = some v → (s.grove (groveOf v)).unavail = false →
        s.dieUp (dieOf v) = true →
      let q := (s.core v).t.router
      (isSeam c side = false → (sget [] q.inq (4 * opposite side + vc)).length < 4 → Completes (.routerOutputArbitrate c) s fun u =>
        left u side ∧ (∀ w, w ≠ c → w ≠ v → u.core w = s.core w)
        ∧ ∀ k, sget [] (u.core v).t.router.inq k = if k = 4 * opposite side + vc then sget [] q.inq k ++ [f] else sget [] q.inq k)
      ∧ (isSeam c side = true → vcCount (sget [] q.xq (opposite side)) vc < (if vc < 2 then 6 else 2) →
        Completes (.routerOutputArbitrate c) s fun u => left u side ∧ (∀ w, w ≠ c → w ≠ v → u.core w = s.core w)
          ∧ ∀ k, sget [] (u.core v).t.router.xq k = if k = opposite side then sget [] q.xq k ++ [f] else sget [] q.xq k))
    ∧ (alone → nextSide c at_.1 f.pkt.yx = none → at_.2 = 4 → s.gstate c = 1 → (s.grove (groveOf c)).selfTest = false →
        (s.core c).t.held = [] → f.pkt.isDma = false → (∀ id st ep data, f.pkt.body = .rrep id st ep 0 data → data.length ≤ 64) →
        Completes (.routerOutputArbitrate c) s fun u =>
      left u 4 ∧ (∀ w, w ≠ c → u.core w = s.core w) ∧ (u.core c).t.inbox = (s.core c).t.inbox ++ [f.pkt])
    ∧ (∀ k m, alone → nextSide c at_.1 f.pkt.yx = none → k < 2 → at_.2 = 5 + k → f.pkt.dst = .mem m →
        Completes (.routerOutputArbitrate c) s fun u => left u (5 + k) ∧ OnlyCore s u c
          ∧ ∀ j, sget [] (u.core c).t.router.attOut j = if j = k then [f] else [])
    ∧ (∀ fs, side < 4 → sget [] r.xq side = f :: fs → (sget [] r.inq (4 * side + vc)).length < 4 →
        Completes (.seamCrossing c side) s fun u => OnlyCore s u c
          ∧ (∀ k, sget [] (u.core c).t.router.xq k = if k = side then fs else sget [] r.xq k)
          ∧ (∀ k, sget [] (u.core c).t.router.inq k = if k = 4 * side + vc then sget [] r.inq k ++ [f] else sget [] r.inq k)
          ∧ u.core c = { s.core c with t := { (s.core c).t with router := { r with
              xq := (u.core c).t.router.xq, inq := (u.core c).t.router.inq } } })

/-- The table m' is m with the bytes bs from a on. -/
def Laid (m m' : Sparse Byte) (a : Nat) (bs : List Byte) : Prop :=
  ∀ b, sget 0 m' b = if a ≤ b ∧ b < a + bs.length then bs.getD (b - a) 0 else sget 0 m b

/-- R302, R304 to R306, R308 to R311, R454: a port accepts a waiting request, from an engine beside it or from its attachment links, and places it: a
write of an unsealed line stores its bytes, a read takes them; its answer leaves with the data, or the acknowledgement; an unused merge
entry expires; the patrol corrects a correctable line, and counts an uncorrectable one and sends its notice; MP_CFG.CNT_CLR zeroes the counters.
Readings and choices of the model it rests on: log 42. -/
def Obligations.MemoryPortRowsServeRequests : Prop :=
  ∀ (s : State) (port link block : Nat), port < 64 →
    let x := s.port port
    (∀ (p : Packet) id a off n data, x.reqs = [] → x.hostq = [] → p.src ≠ .cxl → x.mergeEn = false → s.mapAddr a = .inr (port, off) →
        s.sealStop a (s.reqSession p.src id) = false →
        (∀ l ∈ linesIn off n, l ∉ x.filter ∧ sget 0 x.err l = 0) →
      let takes := fun (link : Nat) (gone : State → Prop) =>
        ((p.body = .dread id a n ∨ ∃ st ep, p.body = .rreq id st ep a n) → Completes (.portRequestAccept port link) s fun u =>
          gone u ∧ (∃ q, (u.port port).reqs = [q] ∧ q.src = p.src ∧ q.id = id ∧ q.placed = some (0, s.memBytes port off n)) ∧ u.mem = s.mem)
        ∧ ((p.body = .dwrite id a data ∨ ∃ st ep, p.body = .wreq id st ep a data) → data.length = n →
          Completes (.portRequestAccept port link) s fun u =>
            gone u ∧ (∃ q, (u.port port).reqs = [q] ∧ q.src = p.src ∧ q.id = id ∧ q.placed = some (0, []))
            ∧ Laid s.mem u.mem (memKey port off) data)
      (∀ ps, x.direct = p :: ps → takes 32 fun u => (u.port port).direct = ps)
      ∧ (∀ f fs, link < 32 → f.pkt = p → f.idx = 0 → p.flits = 1 → p.dst = .mem port →
          sget [] (s.core (memLink port link).1).t.router.attOut (memLink port link).2 = f :: fs →
          takes link fun u => sget [] (u.core (memLink port link).1).t.router.attOut (memLink port link).2 = fs))
    ∧ (∀ (q : PReq) fault bs w, x.reqs = [q] → x.hostq = [] → q.placed = some (fault, bs) → q.src = .core w →
      let (a, k, _) := joinOf (.mem port) w
      let sent := fun (u : State) (b : Body) => (u.port port).reqs = [] ∧ ∃ r,
        sget [] (u.core a).t.router.attSrc k = sget [] (s.core a).t.router.attSrc k ++ [r] ∧ r.body = b ∧ r.src = .mem port ∧ r.dst = .core w
      (q.kind = 0 → Completes (.portReadReply port) s fun u => sent u (.rrep q.id q.stream q.epoch fault bs))
      ∧ (q.kind = 1 → Completes (.portWriteAck port) s fun u => sent u (.wack q.id q.stream q.epoch fault)))
    ∧ (∀ (q : PReq) fault bs e, x.reqs = [q] → x.hostq = [] → q.placed = some (fault, bs) → q.src = .dma e → beside e = .mem port →
      (q.kind = 2 → Completes (.portReadReply port) s fun u => (u.port port).reqs = []
        ∧ ∃ r, (u.engine e).replies = (s.engine e).replies ++ [r] ∧ r.body = .drep q.id fault bs)
      ∧ (q.kind = 3 → Completes (.portWriteAck port) s fun u => (u.port port).reqs = []
        ∧ (u.engine e).xfers = (s.engine e).xfers.map fun t => t.ack q.id fault.toNat))
    ∧ (x.reqs = [] → x.hostq = [] → Completes (.mergeEntryExpire port block) s fun u => u = { s with ports := u.ports }
        ∧ ∀ m, u.port m = if m = port then { x with merge := x.merge.erase block } else s.port m)
    ∧ (x.train = 2 → x.lost = false →
      let ln := x.scrub
      let next := fun (y : Port) => y.scrub = (ln + 1) % 2 ^ 29
      Completes (.patrolScrub port) s fun u =>
        let y := u.port port
        next y ∧ (∀ m, m ≠ port → u.port m = s.port m)
        ∧ (sget 0 x.err ln = 0 → y = { x with scrub := y.scrub } ∧ u = { s with ports := u.ports })
        ∧ (sget 0 x.err ln = 1 → (∀ l, sget 0 y.err l = if l = ln then 0 else sget 0 x.err l) ∧ y.errAddr = BitVec.ofNat 32 ln
          ∧ (∀ i, sget 0 y.cnt i = sget 0 x.cnt i + if i = 4 then 1 else 0) ∧ u = { s with ports := u.ports })
        ∧ (sget 0 x.err ln = 2 → y.err = x.err ∧ (∀ i, sget 0 y.cnt i = sget 0 x.cnt i + if i = 5 then 1 else 0)
          ∧ y.errAddr = BitVec.ofNat 32 (ln + 2 ^ 31) ∧ (s.stewards (portDie port) = true → Reported s u 4 port)
          ∧ (s.stewards (portDie port) = false → u.lead = s.lead
            ∧ (u.die (portDie port)).queue = (s.die (portDie port)).queue ++ [.memUe port ln])))
    ∧ (Completes (.mpCntClr port) s fun u => u = { s with ports := u.ports } ∧ (∀ i, sget 0 (u.port port).cnt i = 0)
        ∧ ∀ m, u.port m = if m = port then { x with cnt := (u.port port).cnt } else s.port m)

/-- R329 to R331, R467: the committed decoder is the host window; a host read returns the line and marks it as held by the host, or returns poison
and counts it; a host write stores its bytes, or is dropped and counted; a request that waits for a held line sends its snoop, and the
host's answer stores the data it had changed and gives the line up; an access of an engine to host memory within the window reads or
writes it, and otherwise fails with HOST_FAULT.
Readings and choices of the model it rests on: log 16, 42, 57. -/
def Obligations.HostWindowAndHostMemoryRows : Prop :=
  ∀ (s : State) (addr base size m po : Nat) (data : List Byte),
    let a := addr - base
    let inside := s.cxl.hdm = some (base, size) ∧ base ≤ addr ∧ addr < base + size
    let counted := fun (u : State) => u.lead.hwinErr = satAdd s.lead.hwinErr 1 ∧ u.mem = s.mem
    let free := (s.port m).reqs = [] ∧ (s.port m).hostq = []
    (s.cxl.memActive = true → s.cxl.link = true → s.cxl.hdm = none → 0 < size → size ≤ 2 ^ 41 →
      exec (.hdmDecoderCommit base ⟨size, 1⟩) s = .next { s with cxl := { s.cxl with hdm := some (base, size) } })
    ∧ (∀ ways, ways ≠ 1 ∨ 2 ^ 41 < size ∨ s.cxl.memActive = false → exec (.hdmDecoderCommit base ⟨size, ways⟩) s = .next s)
    ∧ exec .hdmDecoderUncommit s = .next { s with cxl := { s.cxl with hdm := none } }
    ∧ (inside → (s.cxl.cut = true ∨ ∃ k, k ≠ 0 ∧ s.mapAddr (a / 64 * 64) = .inl k) → Completes (.hostWindowRead addr) s fun u =>
        u.cxl.poison = true ∧ u.cxl.data = [] ∧ counted u)
    ∧ (inside → s.cxl.cut = false → s.mapAddr (a / 64 * 64) = .inr (m, po) → s.sealStop (a / 64 * 64) 0 = false →
        sget 0 (s.port m).err (po / 64) = 0 → (s.port m).mergeEn = false → free →
        ((s.port m).filter = [] ∨ (s.port m).filter.length < Config.filterLines ∨ po / 64 ∈ (s.port m).filter) →
        Completes (.hostWindowRead addr) s fun u =>
        u.cxl = { s.cxl with data := s.memBytes m po 64, poison := false } ∧ po / 64 ∈ (u.port m).filter
        ∧ (∀ l ∈ (s.port m).filter, l ∈ (u.port m).filter) ∧ u = { s with cxl := u.cxl, ports := u.ports })
    ∧ (inside → (s.cxl.cut = true ∨ ∃ k, s.mapAddr a = .inl k) → Completes (.hostWindowWrite addr data) s fun u =>
        counted u ∧ u = { s with lead := u.lead })
    ∧ (inside → s.cxl.cut = false → s.sealStop a 0 = true → s.mapAddr a = .inr (m, po) → free → Completes (.hostWindowWrite addr data) s fun u =>
        counted u ∧ u = { s with lead := u.lead, ports := u.ports })
    ∧ (inside → s.cxl.cut = false → s.sealStop a 0 = false → s.mapAddr a = .inr (m, po) → free → Completes (.hostWindowWrite addr data) s fun u =>
        Laid s.mem u.mem (memKey m po) (data.take (64 - a % 64)) ∧ u = { s with mem := u.mem, ports := u.ports })
    ∧ (∀ p l, m < 64 → l < 2 ^ 29 → p ∈ (s.port m).reqs → p.src ≠ .cxl → p.placed = none → l ∈ linesIn p.off p.len → l ∈ (s.port m).filter →
        l ∉ (s.port m).snoop → Completes (.backInvalidate (m * 2 ^ 29 + l)) s fun u => u = { s with ports := u.ports }
          ∧ ∀ k, u.port k = if k = m then { s.port m with snoop := (s.port m).snoop ++ [l] } else s.port k)
    ∧ (∀ l, m < 64 → l < 2 ^ 29 → l ∈ (s.port m).snoop → free → data.length = 64 →
        (Completes (.hostSnoopResponse (m * 2 ^ 29 + l) (some data)) s fun u => Laid s.mem u.mem (memKey m (64 * l)) data
          ∧ (u.port m).snoop = (s.port m).snoop.erase l ∧ (u.port m).filter = (s.port m).filter.erase l)
        ∧ (Completes (.hostSnoopResponse (m * 2 ^ 29 + l) none) s fun u => u.mem = s.mem
          ∧ (u.port m).snoop = (s.port m).snoop.erase l ∧ (u.port m).filter = (s.port m).filter.erase l))
    ∧ (∀ ok, s.cxl.direct = [] → exec (.hmemAccessComplete ok) s = .next { s with cxl := { s.cxl with leadFails := !ok } })
    ∧ (∀ p ps id o n e ok, s.cxl.direct = p :: ps → p.src = .dma e → beside e = .cxl →
      let can := ok = true ∧ s.cxl.cut = false ∧ s.cxl.link = true ∧ o + n ≤ s.lead.winSize.toNat * 2 ^ 20
      let host := s.lead.winBase.toNat + o
      (p.body = .dread id o n → Completes (.hmemAccessComplete ok) s fun u => u.cxl.direct = ps ∧ u.hostMem = s.hostMem
        ∧ ∃ r, (u.engine e).replies = (s.engine e).replies ++ [r]
          ∧ (can → r.body = .drep id 0 (readBytes s.hostMem host n)) ∧ (¬ can → r.body = .drep id 6 []))
      ∧ (p.body = .dwrite id o data → data.length = n → Completes (.hmemAccessComplete ok) s fun u => u.cxl.direct = ps
        ∧ (can → Laid s.hostMem u.hostMem host data ∧ (u.engine e).xfers = (s.engine e).xfers.map fun t => t.ack id 0)
        ∧ (¬ can → u.hostMem = s.hostMem ∧ (u.engine e).xfers = (s.engine e).xfers.map fun t => t.ack id 6)))

/-! ## BAR0 and the rings (chapter 14) -/

/-- MR_CONFIG extended with the digest of some bytes (R449). -/
def Sys2Proof.Machine.State.measured (s : State) (bs : List Byte) : BitVec 384 :=
  Config.sha384 (bytesOf 48 s.lead.mrConfig ++ bytesOf 48 (Config.sha384 bs))

/-- R334, R335, R340, R400: with the link up, a BAR0 write sets its register or is refused, recording its code and its ring: COOLING once and not
with class 0, the event posted and the write measured; the host window while nothing uses it; the rings while they are disabled; a doorbell
of an enabled ring, moved within the ring.
Readings and choices of the model it rests on: log 20, 41. -/
def Obligations.Bar0WritesSetTheirRegistersOrAreRefused : Prop :=
  ∀ (s : State) (v : Word) (ring off : Nat) (r debug : Bool), s.cxl.link = true → ring < 64 →
    let refused := fun (i : Instr) (code n : Nat) =>
      exec i s = .next { s with lead := { s.lead with setupCode := BitVec.ofNat 4 code, setupRing := BitVec.ofNat 7 n } }
    let low := fun (b : DWord) (v : Word) => BitVec.ofNat 64 (b.toNat / 2 ^ 32 * 2 ^ 32 + v.toNat / 2 ^ 12 * 2 ^ 12)
    let high := fun (b : DWord) (v : Word) => BitVec.ofNat 64 (v.toNat * 2 ^ 32 + b.toNat % 2 ^ 32)
    (s.lead.cls = 0 → v.toNat % 4 ≠ 0 → Completes (.coolingWrite v) s fun u =>
      ∃ e, e.type = 0x20 ∧ e.len = 2 ∧ e.body.head? = some 13
        ∧ u = { s with lead := { s.lead with
            cls := BitVec.ofNat 2 v.toNat, mrConfig := s.measured (bytesOf 4 v), toPost := s.lead.toPost ++ [.record e] } })
    ∧ ((s.lead.cls ≠ 0 ∨ v.toNat % 4 = 0) → refused (.coolingWrite v) 7 0x7F)
    ∧ (let base := if off = 0x18 then BitVec.ofNat 64 (s.lead.winBase.toNat / 2 ^ 32 * 2 ^ 32 + v.toNat / 2 ^ 20 * 2 ^ 20)
        else if off = 0x1C then high s.lead.winBase v else s.lead.winBase
      let size := if off = 0x20 then BitVec.ofNat 28 v.toNat else s.lead.winSize
      let same := base = s.lead.winBase ∧ size = s.lead.winSize
      (off = 0x18 ∨ off = 0x1C ∨ off = 0x20) →
        (s.winBusy = false ∨ same → exec (.hostWinWrite off v) s = .next { s with lead := { s.lead with
          winBase := base, winSize := size, mrConfig := s.measured (bytesOf 4 v) } })
        ∧ (s.winBusy = true → ¬ same → refused (.hostWinWrite off v) 8 0x7F))
    ∧ (off ≠ 0x18 → off ≠ 0x1C → off ≠ 0x20 → Keeps (.hostWinWrite off v) s)
    ∧ (let p := s.pair ring
      let row := fun (P : State → Prop) => Completes (.sqCfgWrite ring off v) s P
      let log := v.toNat % 32
      let en := v.getLsbD 8
      (off = 0 → p.en = false → row fun u => u.pair ring = { p with base := low p.base v } ∧ u = { s with pairs := u.pairs })
      ∧ (off = 4 → p.en = false → row fun u => u.pair ring = { p with base := high p.base v } ∧ u = { s with pairs := u.pairs })
      ∧ (off = 8 → p.en = false → en = true → 4 ≤ log → log ≤ 16 → p.cq.en = true → row fun u =>
          u.pair ring = { p with log := BitVec.ofNat 5 log, en := true, head := 0, tail := 0 } ∧ u = { s with pairs := u.pairs })
      ∧ (off = 8 → en = false → (p.en = true → p.log.toNat = log) → row fun u =>
          u.pair ring = { p with log := BitVec.ofNat 5 log, en := false } ∧ u = { s with pairs := u.pairs })
      ∧ (off = 8 → p.en = true → p.log.toNat ≠ log → refused (.sqCfgWrite ring off v) 1 ring)
      ∧ (off = 8 → p.en = false → en = true → (log < 4 ∨ 16 < log) → refused (.sqCfgWrite ring off v) 2 ring)
      ∧ (off = 8 → p.en = false → en = true → 4 ≤ log → log ≤ 16 → p.cq.en = false → refused (.sqCfgWrite ring off v) 5 ring))
    ∧ (let q := if r then ring else if debug then 65 else 64
      let i := if r then Instr.cqCfgWrite ring off v else Instr.rrCfgWrite debug off v
      let x := s.ring q
      let log := v.toNat % 32
      let en := v.getLsbD 8
      let vec := BitVec.ofNat 6 (v.toNat / 2 ^ 10)
      let cnt := BitVec.ofNat 8 (v.toNat / 2 ^ 16)
      let same := fun (u : State) => (∀ k, k < 66 → k ≠ q → u.ring k = s.ring k)
        ∧ u = { s with pairs := u.pairs, events := u.events, debug := u.debug }
      (off = 0 → x.en = false → Completes i s fun u => u.ring q = { x with base := low x.base v } ∧ same u)
      ∧ (off = 4 → x.en = false → Completes i s fun u => u.ring q = { x with base := high x.base v } ∧ same u)
      ∧ (off = 8 → x.en = false → en = true → 4 ≤ log → log ≤ 16 → cnt ≠ 0 → Completes i s fun u => same u
          ∧ u.ring q = { x with log := BitVec.ofNat 5 log, en := true, irqEn := v.getLsbD 9, vector := vec, irqCount := cnt,
                                tail := 0, phase := true, head := 0, used := 0, since := 0 })
      ∧ (off = 8 → x.en = true → (x.log.toNat ≠ log ∨ x.vector ≠ vec ∨ x.irqCount ≠ cnt) → refused i 1 q)
      ∧ (off = 8 → r = true → x.en = true → en = false → x.log.toNat = log → x.vector = vec → x.irqCount = cnt → cnt ≠ 0 →
          (s.pair ring).en = true → refused i 6 q))
    ∧ (s.lead.state ≠ 0 →
      let n := v.toNat % 2 ^ 16
      (let p := s.pair ring
       (p.en = false → refused (.sqTailDb ring v) 4 ring)
       ∧ (p.en = true → 2 ^ p.log.toNat ≤ n → refused (.sqTailDb ring v) 3 ring)
       ∧ (p.en = true → n < 2 ^ p.log.toNat → Completes (.sqTailDb ring v) s fun u =>
          u.pair ring = { p with tail := n } ∧ (∀ k, k ≠ ring → u.pair k = s.pair k) ∧ u = { s with pairs := u.pairs }))
      ∧ (∀ k i, (k < 64 ∧ i = Instr.cqHeadDb k v) ∨ (k = 64 ∧ i = .evtHeadDb v) ∨ (k = 65 ∧ i = .dbgHeadDb v) →
          let x := s.ring k
          (x.en = false → refused i 4 k) ∧ (x.en = true → x.size ≤ n → refused i 3 k)
          ∧ ∀ taken, x.en = true → n < x.size → x.head < x.size → 0 < taken → taken ≤ x.used → taken ≤ x.size →
              n = (x.head + taken) % x.size → (taken = x.size → x.used = x.size) → Completes i s fun u =>
              u.ring k = { x with head := n, used := x.used - taken } ∧ (∀ j, j < 66 → j ≠ k → u.ring j = s.ring j)
              ∧ u = { s with pairs := u.pairs, events := u.events, debug := u.debug }))
    ∧ (s.bar0Read 0x24 = (BitVec.ofNat 32 (s.lead.setupCode.toNat + 16 * s.lead.setupRing.toNat),
          { s with lead := { s.lead with setupCode := 0, setupRing := 0 } })
      ∧ s.bar0Read 0x28 = (s.lead.evtLost, { s with lead := { s.lead with evtLost := 0 } })
      ∧ s.bar0Read 0x2C = (s.lead.hwinErr, { s with lead := { s.lead with hwinErr := 0 } })
      ∧ s.bar0Read 0x14 = (BitVec.ofNat 32 (s.lead.cls.toNat + if s.lead.cls = 0 then 0 else 4), s))

/-- R326, R335, R336, R338, R340 to R347, R496: the pair visited fetches up to four entries and the visit moves on; an admitted command joins its pair, one that
fails a check completes with that check's status; a record goes to its ring's tail with the phase, a pad before it where it does not fit,
and its interrupt is sent, or pending under a mask until the vector is unmasked; a frame record takes its stream's pending shed count; a
posted event enters the backlog, or is discarded and counted; discarded events and debug records are told first.
Readings and choices of the model it rests on: log 16, 41, 56. -/
def Obligations.SubmissionAndRecordRingRows : Prop :=
  ∀ (s : State) (q vec : Nat), q < 64 → vec < 64 →
    let p := s.pair q
    let entry := readBytes s.hostMem (p.base.toNat + 64 * p.head) 64
    let c : Cmd := { pair := q, entry := entry }
    let fetched : State := { s with
      pairs := sset {} s.pairs q { p with head := (p.head + 1) % 2 ^ p.log.toNat }
      lead := { s.lead with turn := (q + 1) % 64 } }
    (let may := fun (k : Nat) =>
        let x := s.pair k
        (x.en = true ∧ x.cq.en = true ∧ x.head ≠ x.tail ∧ x.inflight < 256 ∧ x.owed < 256 ∧ s.lead.state ≠ 0 ∧ s.stewards s.leadDie = true
        ∧ s.cxl.link = true ∧ ∀ w rest, x.cq.wait = w :: rest →
          x.cq.used + (if x.cq.tail + w.len ≤ x.cq.size then 0 else x.cq.size - x.cq.tail) + w.len ≤ x.cq.size)
     s.lead.turn < 64 → (s.nextPair = some q ↔
        (may q ∧ ∀ k, k < 64 → may k → (q + 64 - s.lead.turn) % 64 ≤ (k + 64 - s.lead.turn) % 64)))
    ∧ (∀ d, s.nextPair = some q → p.fetched = [] → p.head < 2 ^ p.log.toNat → p.tail = (p.head + d) % 2 ^ p.log.toNat → 0 < d →
        d < 2 ^ p.log.toNat → p.owed + 4 ≤ 256 → c.fence = true → p.inflight ≠ 0 → Completes (.submissionFetch q) s fun u =>
        u = { s with pairs := u.pairs, lead := fetched.lead } ∧ (∀ k, k ≠ q → u.pair k = s.pair k)
        ∧ u.pair q = { p with
            head := (p.head + min 4 d) % 2 ^ p.log.toNat
            fetched := (List.range (min 4 d)).map fun i =>
              { pair := q, entry := readBytes s.hostMem (p.base.toNat + 64 * ((p.head + i) % 2 ^ p.log.toNat)) 64 } })
    ∧ (s.nextPair = some q → p.fetched = [] → p.head < 2 ^ p.log.toNat → p.tail = (p.head + 1) % 2 ^ p.log.toNat → 4 ≤ p.log.toNat → p.inflight = 0 →
      (fetched.checkCmd c = none → Completes (.submissionFetch q) s fun u => u = { s with pairs := u.pairs, lead := fetched.lead }
        ∧ (∀ k, k ≠ q → u.pair k = s.pair k)
        ∧ u.pair q = { p with head := p.tail, admitted := p.admitted ++ [c], inflight := 1 })
      ∧ (∀ st d, fetched.checkCmd c = some (st, d) → Completes (.submissionFetch q) s fun u =>
        u = { s with pairs := u.pairs, lead := fetched.lead } ∧ (∀ k, k ≠ q → u.pair k = s.pair k)
        ∧ u.pair q = { p with head := p.tail, cq := { p.cq with
            wait := p.cq.wait ++ [{ type := 1, tag := natOfBytes ((entry.drop 2).take 2), status := st, body := bytesOfNat 8 d }] } }))
    ∧ s.checkCmd c = ([if 0x10 < c.opcode then some (3, 0) else none, c.badField.map fun o => (4, o), (s.authFail c).map fun k => (6, k),
        c.coordBad.map fun o => (2, o), (s.lengthBad c).map fun o => (1, o), s.ownFail c].findSome? id)
    ∧ (let x := p.cq
      ∀ (w : Rec) rest, x.wait = w :: rest → x.en = true → w.type ≠ 3 → w.body.length = 16 * w.len - 8 → 1 ≤ w.len →
      let header := fun (y : Ring) (type len tag status : Nat) =>
        bytesOfNat 4 (b2n y.phase + 2 * len + 2 ^ 8 * type + 2 ^ 16 * tag) ++ bytesOfNat 4 (status + 2 ^ 8 * q + 2 ^ 16 * p.head)
      let notify := x.irqEn = true ∧ (x.irqCount.toNat ≤ x.since + 1 ∨ rest = [])
      let told := fun (u : State) =>
        (notify → (sget true s.cxl.mask x.vector.toNat = false →
            (∀ k, sget 0 u.cxl.sent k = sget 0 s.cxl.sent k + if k = x.vector.toNat then 1 else 0) ∧ u.cxl.pba = s.cxl.pba
            ∧ u.cxl.msg = some (sget (0, 0) s.cxl.msix x.vector.toNat))
          ∧ (sget true s.cxl.mask x.vector.toNat = true → sget false u.cxl.pba x.vector.toNat = true ∧ u.cxl.sent = s.cxl.sent))
        ∧ (¬ notify → u.cxl = s.cxl)
      let since := if x.irqEn = true ∧ (x.irqCount.toNat ≤ x.since + 1 ∨ rest = []) then 0 else x.since + 1
      (x.tail + w.len < x.size → x.used + w.len ≤ x.size → Completes (.recordWrite q) s fun u => told u
        ∧ Laid s.hostMem u.hostMem (x.base.toNat + 16 * x.tail) (header x w.type w.len w.tag w.status ++ w.body)
        ∧ u.pair q = { p with cq := { x with wait := rest, tail := x.tail + w.len, used := x.used + w.len, since := since } }
        ∧ (∀ k, k ≠ q → u.pair k = s.pair k) ∧ u = { s with pairs := u.pairs, cxl := u.cxl, hostMem := u.hostMem })
      ∧ (x.tail < x.size → x.size < x.tail + w.len → w.len < x.size → x.used + (x.size - x.tail) + w.len ≤ x.size → Completes (.recordWrite q) s fun u =>
        told u ∧ (u.pair q).cq = { x with
          wait := rest, tail := w.len, phase := !x.phase, used := x.used + (x.size - x.tail) + w.len, since := since }
        ∧ readBytes u.hostMem (x.base.toNat + 16 * x.tail) 8 = bytesOfNat 4 (b2n x.phase + 2 * (x.size - x.tail)) ++ bytesOfNat 4 0
        ∧ readBytes u.hostMem x.base.toNat (16 * w.len) = header { x with phase := !x.phase } w.type w.len w.tag w.status ++ w.body)
      ∧ (x.tail + w.len ≤ x.size → x.size < x.used + w.len → w.len ≤ x.size → exec (.recordWrite q) s = .next s)
      ∧ (x.size < w.len → Completes (.recordWrite q) s fun u => u.hostMem = s.hostMem
          ∧ (u.pair q).cq = { x with wait := rest, refused := satAdd x.refused 1 }))
    ∧ (let x := p.cq
      ∀ (w : Rec) rest, x.wait = w :: rest → w.type = 3 → 2 ≤ w.len → w.body.length = 16 * w.len - 8 →
      let st := natOfBytes ((w.body.drop 8).take 2)
      let y := sget {} (s.eth (st / 16)).streams (st % 16)
      (x.en = true → x.irqEn = false → x.tail + w.len < x.size → x.used + w.len ≤ x.size → Completes (.recordWrite q) s fun u =>
        readBytes u.hostMem (x.base.toNat + 16 * x.tail + 8) (16 * w.len - 8) = w.body.take 10 ++ bytesOfNat 2 (min y.since 0xFFFF) ++ w.body.drop 12
        ∧ u.pair q = { p with cq := { x with wait := rest, tail := x.tail + w.len, used := x.used + w.len, since := x.since + 1 } }
        ∧ sget {} (u.eth (st / 16)).streams (st % 16) = { y with since := 0 })
      ∧ (x.en = false → Completes (.recordWrite q) s fun u => u = { s with pairs := u.pairs }
        ∧ u.pair q = { p with cq := { x with wait := rest } }))
    ∧ (∀ w rest, s.lead.backlog = .record w :: rest → s.lead.lostNow = 0 → s.events.en = true → s.events.irqEn = false → 1 ≤ w.len →
        w.body.length = 16 * w.len - 8 → s.events.tail + w.len < s.events.size → s.events.used + w.len ≤ s.events.size →
        Completes (.recordWrite 64) s fun u => u.lead = { s.lead with backlog := rest }
          ∧ u.events = { s.events with
              tail := s.events.tail + w.len, used := s.events.used + w.len, since := s.events.since + 1 }
          ∧ readBytes u.hostMem (s.events.base.toNat + 16 * s.events.tail + 8) (16 * w.len - 8) = w.body)
    ∧ (∀ ring lost, (ring = 64 ∧ lost = s.lead.lostNow) ∨ (ring = 65 ∧ lost = s.lead.dbgLost) → lost ≠ 0 →
      let x := s.ring ring
      x.en = true → x.irqEn = false → x.tail + 1 < x.size → x.used + 1 ≤ x.size → Completes (.recordWrite ring) s fun u =>
        u.lead = (if ring = 64 then { s.lead with lostNow := 0 } else { s.lead with dbgLost := 0 })
        ∧ u.ring ring = { x with tail := x.tail + 1, used := x.used + 1, since := x.since + 1 }
        ∧ sget 0 u.hostMem (x.base.toNat + 16 * x.tail + 1) = (if ring = 64 then 0x10 else 0x41)
        ∧ readBytes u.hostMem (x.base.toNat + 16 * x.tail + 8) 8 = bytesOfNat 8 lost)
    ∧ (let x := s.ring 65
      ∀ w rest, s.lead.dbgLog = w :: rest → s.lead.dbgLost = 0 → x.en = true → x.irqEn = false → 1 ≤ w.len →
        w.body.length = 16 * w.len - 8 → x.tail + w.len < x.size → x.used + w.len ≤ x.size →
        Completes (.recordWrite 65) s fun u => u.lead = { s.lead with dbgLog := rest }
          ∧ u.ring 65 = { x with tail := x.tail + w.len, used := x.used + w.len, since := x.since + 1 }
          ∧ readBytes u.hostMem (x.base.toNat + 16 * x.tail + 8) (16 * w.len - 8) = w.body)
    ∧ (∀ e rest, s.lead.toPost = e :: rest →
        exec .eventBacklogPost s = .next { s with lead :=
          if 2 ^ 20 < (s.lead.backlog.map Event.bytes).foldl (· + ·) 0 + e.bytes then { s.lead with toPost := rest, evtLost := satAdd s.lead.evtLost 1, lostNow := s.lead.lostNow + 1 }
          else { s.lead with toPost := rest, backlog := s.lead.backlog ++ [e] } })
    ∧ (s.lead.toPost = [] → Keeps .eventBacklogPost s)
    ∧ (∀ addr data, s.cxl.link = true → Completes (.msixVectorUnmask ⟨vec, addr, data⟩) s fun u => u = { s with cxl := u.cxl }
        ∧ u.cxl = { s.cxl with mask := u.cxl.mask, pba := u.cxl.pba, sent := u.cxl.sent, msix := u.cxl.msix, msg := u.cxl.msg }
        ∧ (∀ k, sget (0, 0) u.cxl.msix k = if k = vec then (addr, data) else sget (0, 0) s.cxl.msix k)
        ∧ u.cxl.msg = (if sget false s.cxl.pba vec = true then some (addr, data) else s.cxl.msg)
        ∧ (∀ k, sget true u.cxl.mask k = (sget true s.cxl.mask k && decide (k ≠ vec)))
        ∧ (∀ k, sget false u.cxl.pba k = (sget false s.cxl.pba k && decide (k ≠ vec)))
        ∧ ∀ k, sget 0 u.cxl.sent k = sget 0 s.cxl.sent k + if k = vec ∧ sget false s.cxl.pba vec = true then 1 else 0)

/-! ## Commands of the submission rings (chapters 14, 15) -/

/-- Command c is the oldest admitted of pair q, behind which rest are admitted and none is only fetched, and it may still run (R338). -/
def Sys2Proof.Machine.State.front (s : State) (q : Nat) (c : Cmd) (rest : List Cmd) : Prop :=
  q < 64 ∧ c.pair = q ∧ (s.pair q).admitted = c :: rest ∧ (s.pair q).fetched = []
    ∧ (s.modPair q fun p => { p with admitted := rest }).ownFail c = none

/-- u is v with command c completed and no more in flight: its CMD record waits for its ring, and rest are the pair's admitted commands
(R338, R340, Table 14.6). -/
def Ends (v u : State) (c : Cmd) (rest : List Cmd) (st detail : Nat) : Prop :=
  u = { v with pairs := u.pairs } ∧ ∀ q, u.pair q =
    if q = c.pair then { v.pair q with
      admitted := rest, inflight := (v.pair q).inflight - 1
      cq := { (v.pair q).cq with wait := (v.pair q).cq.wait ++ [{ type := 1, tag := c.tag, status := st, body := bytesOfNat 8 detail }] } }
    else v.pair q

/-- R227, R253, R301, R339, R349 to R352, R449: NOP completes; MEM_MAP sets NEAR and ABSENT and is measured; CFG_WRITE and STAND_LOAD write the
words of an image and measure it, CFG_WRITE stopping at the first that is refused, CFG_READ puts the words it reads into host memory;
STAND_LOAD makes the stand with its STAND_ID on every core; STAND_CTL starts, stops, aborts and unloads it, waking its gated groves; and a command that may no longer
run completes with its own status.
Readings and choices of the model it rests on: log 16, 31, 39, 40, 41. -/
def Obligations.HostCommandsConfigureAndRunStands : Prop :=
  ∀ (s : State) (q : Nat) (c : Cmd) (rest : List Cmd) (m : Nat) (v : Word),
    let done := fun (i : Instr) (w : State → Prop) (st d : Nat) => Completes i s fun u => ∃ t, w t ∧ Ends t u c rest st d
    let img := bytesOfNat 4 m ++ bytesOfNat 4 0x10015 ++ bytesOf 4 v
    let put := fun (t : State) => ∀ k, t.port k = if k = m then { s.port m with
      hold := BitVec.ofNat 8 v.toNat, mergeEn := v.getLsbD 8, cnt := if v.getLsbD 9 then [] else (s.port m).cnt } else s.port k
    (∀ st d, q < 64 → c.pair = q → (s.pair q).admitted = c :: rest → (s.pair q).fetched = [] → c.opcode = 0 →
        (s.modPair q fun p => { p with admitted := rest }).ownFail c = some (st, d) → done (.nop q) (· = s) st d)
    ∧ (s.front q c rest →
      (c.opcode = 0x00 → done (.nop q) (· = s) 0 0)
      ∧ (c.opcode = 0x01 → done (.memMap q) (· = { s with lead := { s.lead with
            near := BitVec.ofNat 64 (c.n 8 8), absent := BitVec.ofNat 64 (c.n 16 8), mrConfig := s.measured c.entry } }) 0 0)
      ∧ (c.opcode = 0x02 → c.session = 0 → (s.cxl.link = false ∨ s.cxl.cut = true ∨ s.cxl.leadFails = true) →
          done (.cfgWrite q) (· = { s with cxl := { s.cxl with leadFails := false } }) 0x0B 0)
      ∧ (m < 64 → s.cxl.link = true → s.cxl.cut = false → s.cxl.leadFails = false →
        (c.opcode = 0x02 → c.session = 0 → c.n 16 4 = 12 → readBytes s.hostMem (s.lead.winBase.toNat + c.n 8 8) 12 = img →
          (s.dieUp (portDie m) = true → done (.cfgWrite q) (fun t => put t
            ∧ t = { s with ports := t.ports, lead := { s.lead with mrConfig := s.measured img } }) 0 0)
          ∧ (s.dieUp (portDie m) = false →
            done (.cfgWrite q) (· = { s with lead := { s.lead with mrConfig := s.measured img } }) 0x07 (8 + 2 ^ 32 * 5)))
        ∧ (c.opcode = 0x03 → c.n 8 4 = m → c.n 12 4 % 4 = 1 → c.n 12 2 = 0x15 → c.n 14 2 = 1 → s.dieUp (portDie m) = true →
          done (.cfgRead q) (fun t => t = { s with hostMem := t.hostMem } ∧ Laid s.hostMem t.hostMem (s.lead.winBase.toNat + c.n 16 8)
            (bytesOfNat 4 ((s.port m).hold.toNat + 256 * b2n (s.port m).mergeEn))) 0 0)
        ∧ (c.opcode = 0x04 → c.session = 0 → c.n 32 4 = 12 → readBytes s.hostMem (s.lead.winBase.toNat + c.n 24 8) 12 = img → s.dieUp (portDie m) = true →
          let n := c.n 8 2
          let r := rectOf (c.n 12 4) (c.n 16 4)
          (∀ w ∈ rectCores r, s.dieUp (dieOf w) = true ∧ s.gstate w = 1) →
          ((s.stand n).loaded = true → (s.stand n).run = false ∧ (s.stand n).session = 0) →
          done (.standLoad q) (fun t => put t
            ∧ (∀ w, t.core w = if w ∈ rectCores r then (s.core w).modSt fun x => { x with id := BitVec.ofNat 12 n } else s.core w)
            ∧ (∀ k, t.stand k = if k = n then { loaded := true, a := c.n 12 4, b := c.n 16 4, pair := q } else s.stand k)
            ∧ t = { s with cores := t.cores, ports := t.ports, stands := t.stands, lead := { s.lead with mrConfig := s.measured (c.entry ++ img) } }) 0 0))
      ∧ (c.opcode = 0x05 → (s.stand (c.n 8 2)).loaded = true →
        let n := c.n 8 2
        let x := s.stand n
        let run := fun (t : State) (b : Bool) => ∀ w, t.core w = if w ∈ x.cores then (s.core w).modSt fun y => { y with run := b } else s.core w
        let is := fun (t : State) (y : StandRec) => ∀ k, t.stand k = if k = n then y else s.stand k
        let ran := fun (i : Instr) (b : Bool) => Completes i s fun u => ∀ w ∈ x.cores,
          (u.core w).f.st = { (s.core w).f.st with run := b } ∧ (u.grove (groveOf w)).gated = false
        ((∀ w ∈ x.cores, s.dieUp (dieOf w) = true ∧ (s.grove (groveOf w)).on = true ∧ (s.gstate w = 1 ∨ s.gstate w = 2)) →
          (c.n 10 1 = 0 → ran (.standCtlStart q) true) ∧ (c.n 10 1 = 1 → ran (.standCtlStop q) false)
          ∧ (c.n 10 1 = 2 → ran (.standCtlAbort q) false))
        ∧ ((∀ w ∈ x.cores, s.dieUp (dieOf w) = true ∧ s.gstate w = 1) →
        (c.n 10 1 = 0 → done (.standCtlStart q) (fun t => run t true
            ∧ is t (if x.run then x else { x with run := true, tag := c.tag }) ∧ t = { s with cores := t.cores, stands := t.stands }) 0 0)
        ∧ (c.n 10 1 = 1 → done (.standCtlStop q) (fun t => run t false ∧ t = { s with cores := t.cores }) 0 0)
        ∧ (c.n 10 1 = 2 → x.run = true → done (.standCtlAbort q) (fun t => run t false ∧ is t { x with run := false }
            ∧ (∀ k, t.pair k = if k = x.pair then { s.pair k with cq := { (s.pair k).cq with
                wait := (s.pair k).cq.wait ++ [{ type := 2, tag := x.tag, status := 0x11, len := 2, body := bytesOfNat 2 n ++ List.replicate 22 0 }] } }
              else s.pair k)
            ∧ t = { s with cores := t.cores, stands := t.stands, pairs := t.pairs }) 0 0)
        ∧ (c.n 10 1 = 3 → x.run = false → x.session = 0 →
          done (.standCtlUnload q) (fun t => is t {} ∧ t = { s with stands := t.stands }) 0 0))))

/-- R356 to R370: COPY, FILL and COMPARE go to the engine chosen for them while it has a free slot, else wait in the lead until it has; a COPY's
next read and a FILL's next beat leave for the port beside the engine; a reply lands in its transfer, compared with the other side's
bytes or noted as its fault; an uncorrectable buffer word stops a COPY with BUF_UE, counted and reported; a transfer that has ended completes its command with the status of Table 15.3; DMA_CFG clears the counters.
Readings and choices of the model it rests on: log 16, 43. -/
def Obligations.DmaRowsMoveAndComplete : Prop :=
  ∀ (s : State) (e : Nat), e < 58 →
    let y := s.engine e
    let only := fun (u : State) => ∀ k, k ≠ e → u.engine k = s.engine k
    (∀ (q : Nat) (c : Cmd) (rest : List Cmd), s.front q c rest → s.engineFor c = e →
      let row := fun (i : Instr) =>
        (y.xfers.length < 64 → (∀ d ∈ s.lead.dmaWait, s.engineFor d ≠ e) → Completes i s fun u => only u
          ∧ (∃ k, k < 64 ∧ (∀ t ∈ y.xfers, t.slot ≠ k) ∧ (∀ j, j < k → ∃ t ∈ y.xfers, t.slot = j)
            ∧ u.engine e = { y with xfers := y.xfers ++ [{ slot := k, cmd := c }] })
          ∧ u = { s with engines := u.engines, pairs := u.pairs } ∧ ∀ k, u.pair k = if k = q then { s.pair q with admitted := rest } else s.pair k)
        ∧ (64 ≤ y.xfers.length → Completes i s fun u => u = { s with pairs := u.pairs, lead := { s.lead with dmaWait := s.lead.dmaWait ++ [c] } }
          ∧ ∀ k, u.pair k = if k = q then { s.pair q with admitted := rest } else s.pair k)
      (c.opcode = 6 → row (.copy q)) ∧ (c.opcode = 7 → row (.fill q)) ∧ (c.opcode = 8 → row (.compare q)))
    ∧ (∀ c rest, s.lead.dmaWait = c :: rest → s.engineFor c = e → y.xfers.length < 64 → Completes (.dmaEngineAssign e) s fun u => only u
        ∧ u = { s with engines := u.engines, lead := { s.lead with dmaWait := rest } }
        ∧ ∃ t, (u.engine e).xfers = y.xfers ++ [t] ∧ t.cmd = c ∧ ∀ z ∈ y.xfers, z.slot ≠ t.slot)
    ∧ (∀ (x : Xfer) m po, s.engineUp e = true → y.xfers = [x] → x.slot < 64 → x.reqs = [] → x.bufA = [] → x.bufB = [] → x.marks = [] → x.diff = none →
        x.fault = none → beside e = .mem m → x.cmd.src.fixed = false → x.cmd.dst.fixed = false → x.cmd.dst.space = 0 →
      let sent := fun (u : State) (x' : Xfer) (body : Body) => only u ∧ (u.engine e).xfers = [x'] ∧ (u.engine e).nextId = y.nextId + 1
        ∧ u = { s with engines := u.engines, ports := u.ports } ∧ (∀ k, k ≠ m → u.port k = s.port k)
        ∧ ∃ p, u.port m = { s.port m with direct := (s.port m).direct ++ [p] } ∧ p.src = .dma e ∧ p.dst = .mem m ∧ p.body = body
      (x.cmd.opcode = 6 → x.cmd.src.space = 0 → x.rdA < x.cmd.length → s.mapAddr (x.cmd.n 8 8 + x.rdA) = .inr (m, po) →
        let a := x.cmd.n 8 8 + x.rdA
        let n := min (256 - a % 256) (x.cmd.length - x.rdA)
        Completes (.dmaReadRequest e) s fun u => sent u { x with
          reqs := [⟨y.nextId, 0, x.rdA, n⟩], rdA := x.rdA + n, tracked := true } (.dread y.nextId a n))
      ∧ (x.cmd.opcode = 7 → x.wr < x.cmd.length → s.mapAddr (x.cmd.n 16 8 + x.wr) = .inr (m, po) →
        let a := x.cmd.n 16 8 + x.wr
        let n := min (32 - a % 32) (x.cmd.length - x.wr)
        let bs := (List.range n).map fun i => BitVec.ofNat 8 (x.cmd.n (32 + (x.wr + i) % 8) 1)
        Completes (.dmaWriteBeat e) s fun u => sent u { x with
            reqs := [⟨y.nextId, 2, x.wr, n⟩], wr := x.wr + n, tracked := true } (.dwrite y.nextId a bs)
          ∧ ∀ i, sget 0 (u.engine e).cnt i = sget 0 y.cnt i + if i = 2 then BitVec.ofNat 64 n else 0))
    ∧ (∀ (x : Xfer) as, s.engineUp e = true → y.xfers = [x] → x.slot < 64 → x.cmd.opcode = 6 → x.cmd.dst.fixed = false → x.tracked = true →
        x.bufA = [(x.wr, as)] → 32 ≤ as.length → x.wr < x.cmd.length → x.fault = none → x.marks = [⟨0, x.wr / 8, true⟩] → y.bufUe ≠ 0xFFFF →
        s.stewards (engineName e).1 = true →
        Completes (.dmaWriteBeat e) s fun u => only u
          ∧ u.engine e = { y with xfers := [{ x with fault := some (3, x.wr) }], wrTurn := (x.slot + 1) % 64, bufUe := y.bufUe + 1 }
          ∧ ∃ r, u = { s with engines := u.engines, lead := { s.lead with toPost := s.lead.toPost ++ [.record r] } } ∧ r.type = 0x21
            ∧ r.body.head? = some 5)
    ∧ (∀ (x : Xfer) r p ps fault bs, y.xfers = [x] → x.reqs = [r] → x.diff = none → y.replies = p :: ps → p.body = .drep r.id fault bs →
      let landed := fun (u : State) (x' : Xfer) => only u ∧ u = { s with engines := u.engines }
        ∧ u.engine e = { y with xfers := [x'], replies := ps, cnt := (u.engine e).cnt }
      (x.cmd.opcode = 6 → r.side = 0 → x.bufA = [] → fault = 0 → Completes (.dmaReadReply e) s fun u =>
        landed u { x with reqs := [], bufA := [(r.off, bs)] }
        ∧ ∀ i, sget 0 (u.engine e).cnt i = sget 0 y.cnt i + if i = 1 then BitVec.ofNat 64 bs.length else 0)
      ∧ (∀ as, x.cmd.opcode = 8 → r.side = 1 → r.off = x.wr → x.bufA = [(x.wr, as)] → x.bufB = [] → x.marks = [] → x.fault = none →
        as.length = bs.length → fault = 0 →
        (as = bs → Completes (.dmaReadReply e) s fun u => landed u { x with reqs := [], wr := x.wr + bs.length, bufA := [], bufB := [] })
        ∧ (∀ o a b, as[o]? = some a → bs[o]? = some b → a ≠ b → (∀ j, j < o → as[j]? = bs[j]?) → Completes (.dmaReadReply e) s fun u =>
            landed u { x with reqs := [], wr := x.wr + o, diff := some (x.wr + o, a, b), bufA := [], bufB := [] }))
      ∧ (fault ≠ 0 → x.fault = none → Completes (.dmaReadReply e) s fun u =>
        landed u { x with reqs := [], fault := some (fault.toNat, r.off) }))
    ∧ (∀ (x : Xfer), y.xfers = [x] → x.slot < 64 → x.reqs = [] → x.dropped = false → x.cmd.spads = [] → (s.pair x.cmd.pair).fetched = [] →
      let ended := fun (st d reason : Nat) => Completes (.dmaTransferComplete e) s fun u => only u ∧ ∃ t : State, Ends t u x.cmd (s.pair x.cmd.pair).admitted st d
        ∧ t = { s with engines := t.engines }
        ∧ t.engine e = { y with
            xfers := [], cnt := (t.engine e).cnt, lastReason := if reason = 0 then y.lastReason else BitVec.ofNat 8 reason }
        ∧ ∀ i, sget 0 (t.engine e).cnt i = sget 0 y.cnt i + if i = 0 ∨ (i = 4 ∧ reason ≠ 0) then 1 else 0
      (x.diff = none → x.fault = none → x.cmd.length ≤ x.wr → ended 0 (x.cmd.length % 2 ^ 48) 0)
      ∧ (∀ o a b, x.diff = some (o, a, b) → ended 0x0D (o + 2 ^ 48 * a.toNat + 2 ^ 56 * b.toNat) 0)
      ∧ (∀ r o, x.diff = none → x.fault = some (r, o) → o ≤ x.wr → r ≠ 0 →
        ended (if r ≤ 3 then 0x0C else if r ≤ 5 then 0x0A else if r = 6 then 0x0B else 0x05) (o + 2 ^ 48 * r) r))
    ∧ (s.engineUp e = true → Completes (.dmaCntClr e) s fun u => only u ∧ u.engine e = { y with cnt := [] }
        ∧ u = { s with engines := u.engines, answers := sset (0, 0) s.answers hostReq (0, 0) })

/-! ## Ethernet ports (chapter 16) -/

/-- Of s, u has changed Ethernet port e alone, to x, and perhaps the parts that the caller names in v. -/
def Sys2Proof.Machine.State.onlyEth (v u : State) (e : Nat) (x : Eth) : Prop :=
  u = { v with eths := u.eths } ∧ ∀ k, u.eth k = if k = e then x else v.eth k

/-- R371, R373, R374, R383, R389, R390, R449: FLOW_OPEN sets a port, opens a flow, or writes the port's status block to host memory, measured each
time; FLOW_CLOSE sends CLOSE and frees the flow; FRAME_OPEN opens a frame stream, and FRAME_CLOSE with no frame in flight closes it; a
frame that is no Glade packet is answered or counted; and the link follows its events.
Readings and choices of the model it rests on: log 40, 44, 49. -/
def Obligations.EthernetCommandsOpenAndClose : Prop :=
  ∀ (s : State) (q : Nat) (c : Cmd) (rest : List Cmd) (port : Nat) (frame : List Byte),
    let done := fun (i : Instr) (w : State → Prop) => Completes i s fun u => ∃ t, w t ∧ Ends t u c rest 0 0
    (s.front q c rest → c.n 8 1 / 4 % 8 = port →
      let x := s.eth port
      let n := c.n 9 1
      let f : Flow := sget {} x.flows n
      let v : State := { s with lead := { s.lead with mrConfig := s.measured c.entry } }
      (c.opcode = 0x0B → c.n 8 1 % 4 = 0 → done (.flowOpenPort q) fun t => v.onlyEth t port { x with
          rate := BitVec.ofNat 2 (c.n 10 1), rtoLog := c.n 11 1, mac := (c.entry.drop 36).take 6, ip6 := (c.entry.drop 44).take 16,
          ip4 := (c.entry.drop 60).take 4, link := x.link && decide (c.n 10 1 ≠ 0) })
      ∧ (c.opcode = 0x0B → c.n 8 1 % 4 = 1 → done (.flowOpenFlow q) fun t => ∃ y : Eth, v.onlyEth t port { x with flows := y.flows, seqs := y.seqs }
          ∧ (∀ k, sget {} y.flows k = if k = n then {
              open_ := true, session := c.session, ipv4 := decide (c.n 8 1 / 32 % 2 = 1), udp := c.n 12 2, ringLog := c.n 14 1
              ringBase := c.n 16 8, winBase := c.n 24 8, winUnits := c.n 32 4, mac := (c.entry.drop 36).take 6
              ip := (c.entry.drop 44).take 16 } else sget {} x.flows k)
          ∧ ∀ k, sget 0 y.seqs k = if k ∈ f.pairs then 0 else sget 0 x.seqs k)
      ∧ (c.opcode = 0x0B → c.n 8 1 % 4 = 2 → s.cxl.link = true → s.cxl.cut = false → s.cxl.leadFails = false → done (.flowOpenStat q) fun t =>
          t = { v with hostMem := t.hostMem } ∧ ∃ bs, bs.length = 256 ∧ Laid s.hostMem t.hostMem (s.lead.winBase.toNat + c.n 16 8) bs
            ∧ let y : FStream := sget {} x.streams n
              let at_ := fun (lo k : Nat) => natOfBytes ((bs.drop lo).take k)
              at_ 0 4 = x.rate.toNat + 4 * b2n x.link ∧ at_ 8 8 = x.rxOther.toNat ∧ at_ 16 8 = x.authFail.toNat ∧ at_ 24 8 = x.retx.toNat
              ∧ at_ 32 8 = x.rxRefused.toNat ∧ at_ 40 8 = x.itemErr.toNat ∧ at_ 48 4 = y.admitted.toNat ∧ at_ 52 4 = y.shed.toNat
              ∧ at_ 56 4 = y.replaced.toNat ∧ at_ 60 4 = y.stale.toNat ∧ at_ 64 4 = y.doneErr.toNat)
      ∧ (c.opcode = 0x0C → f.open_ = false → done (.flowClose q) (· = s))
      ∧ (c.opcode = 0x0C → f.open_ = true → f.unacked = [] → x.msgs = [] → x.gaps = [] → done (.flowClose q) fun t =>
          ∃ y : Eth, s.onlyEth t port { x with
              flows := y.flows, seqs := y.seqs, tx := y.tx, recov := x.recov.filter fun k => !decide (k ∈ f.pairs) }
            ∧ y.tx.take 4 = [1, 2] ++ bytesOfNat 2 n
            ∧ (∀ k, sget {} y.flows k = if k = n then { closed := true } else sget {} x.flows k)
            ∧ ∀ k, sget 0 y.seqs k = if k ∈ f.pairs then 0 else sget 0 x.seqs k))
    ∧ (s.front q c rest → c.n 8 1 % 8 = port →
      let x := s.eth port
      let st := c.n 8 1 / 8 % 16
      let y : FStream := sget {} x.streams st
      (c.opcode = 0x09 → done (.frameOpen q) fun t => ∃ z, s.onlyEth t port { x with streams := z }
          ∧ ∀ k, sget {} z k = if k = st then {
              open_ := true, flow := c.n 9 1, depth := c.n 10 1, replace := decide (c.n 11 1 % 2 = 1), pipe := c.n 11 1 / 2
              overrun := if c.n 12 1 = 0 then 64 else c.n 12 1
              cq := c.n 13 1, stand := c.n 14 2, base := c.n 16 8, units := c.n 24 4, size := c.n 28 4, core := c.n 32 4
              ep := BitVec.ofNat 5 (c.n 36 1), mask := BitVec.ofNat 16 (c.n 38 2) }
            else sget {} x.streams k)
      ∧ (c.opcode = 0x0A → y.frames = [] → y.closing = [] → done (.frameClose q) fun t => ∃ z fs, s.onlyEth t port { x with streams := z, flows := fs }
          ∧ (∀ k, sget {} z k = if k = st then { y with open_ := false, stopped := true, ending := false } else sget {} x.streams k)
          ∧ ∀ k, sget {} fs k = if k = y.flow then { (sget {} x.flows k : Flow) with peerClosed := false } else sget {} x.flows k)
      ∧ (c.opcode = 0x0A → y.frames ≠ [] → (∀ g ∈ y.frames, g.started = true) → Completes (.frameClose q) s fun u => ∃ z,
          State.onlyEth { s with pairs := u.pairs } u port { x with streams := z }
          ∧ (∀ k, sget {} z k = if k = st then { y with stopped := true, ending := true, closing := y.closing ++ [c] } else sget {} x.streams k)
          ∧ ∀ k, u.pair k = if k = q then { s.pair q with admitted := rest } else s.pair k))
    ∧ (port < 8 →
      let x := s.eth port
      (s.ethUp port = true → 9216 < frame.length → Completes (.ethRxOther port frame) s fun u =>
          s.onlyEth u port { x with rxOther := x.rxOther + 1 })
      ∧ (s.ethUp port = true → frame.length ≤ 9216 → Completes (.ethRxOther port frame) s fun u => s.onlyEth u port
          (match Config.neighbourReply x.mac x.ip4 x.ip6 frame with
          | some r => { x with tx := r }
          | none => { x with rxOther := x.rxOther + 1 }))
      ∧ (Completes (.ethLinkUp port) s fun u => s.onlyEth u port { x with link := decide (x.rate ≠ 0) })
      ∧ (Completes (.ethLinkDown port) s fun u => s.onlyEth u port { x with link := false }))

/-- R371, R375 to R382, R384 to R387: a Glade packet whose tag fails is counted and dropped; a DATA packet next in order acknowledges, takes the peer's
window and places its items, any other is only acknowledged; an ACK frees what it acknowledges; the peer's CLOSE closes the flow with an
event; a packet is sent with the next number and kept, and retransmitted until acknowledged; one for another address or UDP port, or in a
frame of more than 9,216 bytes, is counted; a ring record is written to the ring and delivered with its pair's sequence number; an MREAD answers with its bytes; a whole frame starts with a record to its core, and its done signal completes it.
Readings and choices of the model it rests on: log 44, 45. -/
def Obligations.GladeTrafficRows : Prop :=
  ∀ (s : State) (port n udp : Nat) (dst pkt : List Byte), port < 8 → n < 256 → s.ethUp port = true →
    let x := s.eth port
    let f : Flow := sget {} x.flows n
    let key := 256 * port + n
    let at_ := fun (lo k : Nat) => natOfBytes ((pkt.drop lo).take k)
    let no := at_ 8 8
    let ack := at_ 16 8
    let flow := fun (u : State) => (sget {} (u.eth port).flows n : Flow)
    let others := fun (u : State) => ∀ k, k ≠ n → sget {} (u.eth port).flows k = sget {} x.flows k
    let traffic := fun (u : State) => s.onlyEth u port { x with flows := (u.eth port).flows, tx := (u.eth port).tx } ∧ others u
    let header := fun (type free no rx : Nat) =>
      [1, BitVec.ofNat 8 type] ++ bytesOfNat 2 n ++ bytesOfNat 4 free ++ bytesOfNat 8 no ++ bytesOfNat 8 rx ++ bytesOfNat 8 0
    let mine := f.udp = udp ∧ dst = (if f.ipv4 then x.ip4 else x.ip6) ∧ 18 + (if dst.length = 4 then 20 else 40) + 8 + pkt.length ≤ 9216
    let received := fun (row : Nat → Datagram → Instr) (type : Nat) (taken : List Byte → State → Prop) =>
      let i := row port ⟨dst, udp, pkt⟩
      (¬ mine → at_ 2 2 = n → Completes i s fun u => s.onlyEth u port { x with rxOther := x.rxOther + 1 }) ∧ ∀ z, f.open_ = true →
      s.session f.session = some z → mine → at_ 2 2 = n → at_ 1 1 = type →
      let k := Config.hkdfExpand z.root (ascii "gq glade" ++ [BitVec.ofNat 8 port, BitVec.ofNat 8 n, 0]) 36
      let body := pkt.drop 32
      Completes i s fun u => match Config.gcmOpen (k.take 32) (k.drop 32 ++ bytesOfNat 8 (if type = 1 then 2 ^ 63 + no else no)) (pkt.take 32)
          (body.take (body.length - 16)) (body.drop (body.length - 16)) with
        | none => s.onlyEth u port { x with authFail := x.authFail + 1 }
        | some items => taken items u
    let freed : Flow := { f with peerWin := at_ 4 4, unacked := f.unacked.filter fun p => !decide (p.no ≤ ack) }
    (x.writes = [] → x.gaps = [] → (∀ p ∈ f.unacked, p.msgs = []) →
      (no ≠ f.rxNo + 1 → received .gladePacketReceive 0 fun _ u => traffic u ∧ flow u = { f with ackCnt := f.ackCnt + 1 }
        ∧ (u.eth port).tx.take 32 = header 1 f.free f.ackCnt f.rxNo)
      ∧ (no = f.rxNo + 1 → received .gladePacketReceive 0 fun items u =>
        let got : Flow := { freed with rxNo := no, ackCnt := f.ackCnt + 1 }
        (items = [] → traffic u ∧ flow u = got ∧ (u.eth port).tx.take 32 = header 1 f.free f.ackCnt no)
        ∧ (∀ (core : Nat) (ep se : BitVec 5) data, coreOk core = true → core < 2 ^ 18 → se.toNat < 16 → f.ring = [] → 8 ≤ data.length → data.length ≤ 64 →
            data.length % 8 = 0 →
            let len := data.length
            let word := core + 2 ^ 18 * ep.toNat + 2 ^ 23 * se.toNat
            items = [1, 0] ++ bytesOfNat 2 len ++ bytesOfNat 4 word ++ data → f.tail + (8 + len + 15) / 16 < 2 ^ f.ringLog →
            others u ∧ u = { s with eths := u.eths, cores := u.cores }
            ∧ (∃ r, flow u = { got with ring := [r], tail := f.tail + (8 + len + 15) / 16 } ∧ r.core = core ∧ r.ep = ep ∧ r.srcEp = se ∧ r.data = data
              ∧ r.sig = none ∧ r.sent = false ∧ r.done = false ∧ r.entries = (8 + len + 15) / 16)
            ∧ ∀ m po, let a := f.ringBase + 16 * f.tail
              s.mapAddr a = .inr (m, po) → a % 256 + 8 + len ≤ 256 →
              let (b, k, _) := entryOf (.eth port) (.mem m)
              (∃ w, (u.eth port).writes = [w] ∧ w.id = x.nextId ∧ w.flow = n ∧ w.pktNo = no ∧ w.item = 0 ∧ w.seg = none)
              ∧ ∃ p, sget [] (u.core b).t.router.attSrc k = sget [] (s.core b).t.router.attSrc k ++ [p] ∧ p.src = .eth port ∧ p.dst = .mem m
                ∧ p.body = .dwrite x.nextId a items))
      ∧ received .gladeAckReceive 1 (fun _ u => traffic u ∧ flow u = freed)
      ∧ (no = f.rxNo + 1 → f.unacked = [] → x.msgs = [] → x.boundTo n = none → received .gladePeerClose 2 fun _ u =>
        flow u = { f with
          rxNo := no, ackCnt := f.ackCnt + 1, peerWin := at_ 4 4, items := [], reads := [], open_ := false, closed := true
          peerClosed := false, closeNo := 0 } ∧ others u ∧ (u.eth port).tx.take 32 = header 1 f.free f.ackCnt no
        ∧ ∃ r, r.type = 0x24 ∧ r.body.take 3 = [BitVec.ofNat 8 port, BitVec.ofNat 8 n, 1] ∧ u = { s with eths := u.eths, lead := { s.lead with toPost := s.lead.toPost ++ [.record r] } })
      ∧ (∀ item, f.open_ = true → f.items = [item] → item.length ≤ 8960 → x.msgs = [] → f.unacked.length < 256 → Completes (.gladePacketSend key) s fun u =>
        s.onlyEth u port { x with
          flows := (u.eth port).flows, tx := (u.eth port).tx, itemErr := x.itemErr + if natOfBytes (item.take 1) = 7 then 1 else 0 }
        ∧ others u ∧ (u.eth port).tx.take 32 = header 0 f.free f.txNo f.rxNo
        ∧ flow u = { f with txNo := f.txNo + 1, items := [], unacked := f.unacked ++ [⟨f.txNo, (u.eth port).tx, []⟩] })
      ∧ (∀ r tl, f.ring = r :: tl → r.done = false → r.sent = false → r.key ∉ x.recov → r.seq = none → Completes (.rxRingDeliver key) s fun u =>
        let (a, k, _) := entryOf (.eth port) (.core r.core)
        let q := sget 0 x.seqs r.key
        (flow u).ring.head? = some { r with sent := true, seq := some q }
        ∧ (∀ j, sget 0 (u.eth port).seqs j = if j = r.key then q + 1 else sget 0 x.seqs j) ∧ u = { s with eths := u.eths, cores := u.cores }
        ∧ ∃ p, sget [] (u.core a).t.router.attSrc k = sget [] (s.core a).t.router.attSrc k ++ [p] ∧ p.src = .eth port ∧ p.dst = .core r.core
          ∧ p.body = match r.sig with
            | some v => .sig r.srcEp r.ep q r.id v 0
            | none => .msg r.srcEp r.ep q r.id r.data)
      ∧ (∀ m tl bs, f.reads = m :: tl → m.part = bs.length → bs ≠ [] → bs.length % 8 = 0 → m.wait = [] → m.bad = 0 → m.got = [(m.off, bs)] → m.left = m.part →
        Completes (.mreadReply key) s fun u => s.onlyEth u port { x with flows := (u.eth port).flows } ∧ others u
          ∧ flow u = { f with
              reads := tl
              items := f.items ++ [[5, 0] ++ bytesOfNat 2 (8 + bs.length) ++ bytesOf 4 m.req ++ bytesOfNat 8 m.off ++ bs] }))
    ∧ (∀ p before, f.unacked = before ++ [p] → Completes (.gladeRetransmit key) s fun u =>
        s.onlyEth u port { x with tx := p.bytes, retx := x.retx + BitVec.ofNat 64 (before.length + 1) })
    ∧ (∀ id fault more w, x.acks = (id, fault) :: more → x.writes = [w] → w.id = id → w.flow = n →
      let again := f.open_ && decide (w.pktNo ≠ 0) && decide (w.pktNo - 1 < f.rxNo)
      let closes := !again && decide (f.closeNo ≠ 0) && decide (f.closeNo ≤ f.rxNo)
      let landed := fun (u : State) => (u.eth port).acks = more ∧ (u.eth port).writes = [] ∧ u = { s with eths := u.eths } ∧ others u
        ∧ (flow u).ackCnt = (if again || closes then f.ackCnt + 1 else f.ackCnt) ∧ (flow u).closeNo = (if closes then 0 else f.closeNo)
        ∧ (again || closes → (u.eth port).tx.take 32 = header 1 f.free f.ackCnt f.rxNo)
      (fault = 0 → w.seg = none → Completes (.portBlockWriteAckLand port) s fun u => landed u ∧ (flow u).items = f.items
        ∧ (u.eth port).streams = x.streams)
      ∧ (fault ≠ 0 → w.pktNo ≠ 0 → f.open_ = true → Completes (.portBlockWriteAckLand port) s fun u => landed u
        ∧ (flow u).items = f.items ++ [[7, 0, 8, 0, if fault = 4 then 0x0A else 0x0C, BitVec.ofNat 8 w.item, 0, 0] ++ bytesOfNat 8 w.pktNo])
      ∧ (∀ st no, fault = 0 → w.seg = some (st, no) → Completes (.portBlockWriteAckLand port) s fun u => landed u
        ∧ (sget {} (u.eth port).streams st).frames = ((sget {} x.streams st).frames.map fun g =>
            if g.no = no then { g with writes := g.writes.filter fun k => !decide (k = id) } else g)))
    ∧ (∀ (st : Nat) (g : Frame), st < 16 →
      let y : FStream := sget {} x.streams st
      let z := fun (u : State) => (sget {} (u.eth port).streams st : FStream)
      (x.boundTo n = some st → y.frames = [g] → g.started = false → g.bytes = y.size → g.writes = [] → 0 < y.pipe → f.open_ = true → f.ring = [] →
        f.tail + 2 < 2 ^ f.ringLog → Completes (.frameStart key) s fun u => z u = { y with frames := [{ g with started := true }] }
          ∧ (flow u).tail = f.tail + 2 ∧ u = { s with eths := u.eths, cores := u.cores }
          ∧ ∃ r, (flow u).ring = [r] ∧ r.entries = 2 ∧ r.core = y.core ∧ r.ep = y.ep ∧ r.srcEp.toNat = 16 + st ∧ r.sig = none
            ∧ r.data = bytesOfNat 8 g.no ++ bytesOfNat 8 (y.base + 4096 * y.units * g.slot) ++ bytesOfNat 4 y.size ++ bytesOfNat 1 g.slot
                ++ List.replicate 11 0)
      ∧ (∀ p ms w se de seq tag, x.msgs = p :: ms → x.gaps = [] → p.src = .core w → p.body = .esig n se de seq tag 1 → de.toNat = 16 + st → y.frames = [g] →
          g.started = true → y.ending = false → y.mask = 0 → (s.pair y.cq).cq.en = true → Completes (.frameDone key) s fun u =>
        let (a, k, _) := entryOf (.eth port) (.core w)
        State.onlyEth { s with cores := u.cores, pairs := u.pairs } u port { x with msgs := ms, streams := (u.eth port).streams }
        ∧ z u = { y with frames := [] }
        ∧ (∃ r, r.type = 3 ∧ r.status = 0 ∧ r.len = 2 ∧ r.body.take 10 = bytesOfNat 8 g.no ++ bytesOfNat 2 (16 * port + st)
          ∧ ∀ j, u.pair j = if j = y.cq then { s.pair j with cq := { (s.pair j).cq with wait := (s.pair j).cq.wait ++ [r] } } else s.pair j)
        ∧ ∃ r, sget [] (u.core a).t.router.attSrc k = sget [] (s.core a).t.router.attSrc k ++ [r] ∧ r.body = .ack se seq tag ∧ r.dst = .core w))

/-! ## Power, clearings and service (chapters 17, 18) -/

/-- An event of a type whose first body byte is kind is the last that u has posted after those of s. -/
def Posted (s u : State) (type kind : Nat) : Prop :=
  ∃ r, u.lead.toPost = s.lead.toPost ++ [.record r] ∧ r.type = type ∧ r.body.head? = some (BitVec.ofNat 8 kind)

/-- Nothing has been kept but the supplies and what is outside the module (R412, R476). -/
def Tripped (s u : State) : Prop :=
  u = { input := { s.input with run := false, rails := false, armed := false, trip := true }
        bt := s.bt, hostMem := s.hostMem, free := s.free, pending := s.pending }

/-- R394, R395, R399 to R406, R411, R412, R417: a heartbeat is noted; the alternate takes the lead over when none has come, the commands the lead
held ending with ABORTED; a window above the envelope steps every die down, one well below it starts one ramp, and the ramp's end
switches; the input limit takes every die to point 3; a sample stores its readings, clears hot groves, steps its die down, and trips the module; a
guard clears its grove, ending an update of its die, or trips.
Readings and choices of the model it rests on: log 13, 47. -/
def Obligations.PowerAndThermalRows : Prop :=
  ∀ (s : State) (die : Nat), die < 25 →
    let x := s.die die
    let t := limitsOf s.declared.toNat
    (s.stewards die = true → s.lead.fwValid = true → Completes (.heartbeat die) s fun u => u = { s with dies := u.dies }
        ∧ ∀ d, u.die d = if d = die then { x with beat := true } else s.die d)
    ∧ (s.lead.leadAlt = false → (s.die 2).updating = false → s.stewards 12 = true → s.lead.fwValid = true →
      ((s.die 2).beat = true → Completes .leadTakeover s fun u => u = { s with dies := u.dies }
        ∧ ∀ d, u.die d = if d = 2 then { s.die 2 with beat := false } else s.die d)
      ∧ (∀ c, (s.die 2).beat = false → s.leadCommands = [c] → (∀ q, (s.pair q).fetched = []) → Completes .leadTakeover s fun u =>
        let lost := s.lead.backlog.length + s.lead.toPost.length
        u.lead.leadAlt = true ∧ u.lead.backlog = [] ∧ u.lead.evtLost = satAdd s.lead.evtLost lost ∧ u.lead.lostNow = s.lead.lostNow + lost
        ∧ (∃ r, u.lead.toPost = [.record r] ∧ r.type = 0x20 ∧ r.body.head? = some 11)
        ∧ ∀ q, u.pair q = if q = c.pair then { s.pair q with
            admitted := [], inflight := (s.pair q).inflight - 1
            cq := { (s.pair q).cq with wait := (s.pair q).cq.wait ++ [{ type := 1, tag := c.tag, status := 0x11, body := bytesOfNat 8 1 }] } }
          else { s.pair q with admitted := [] }))
    ∧ (∀ mw, s.stewards s.leadDie = true →
      let begun := fun (u : State) => u.lead.clsNow = s.declared ∧ u.lead.watts = mw / 1000
      (t.envelope < mw → Completes (.powerWindow mw) s fun u => begun u ∧ u.lead.holdoff = 4
        ∧ ∀ d, d < 25 → (u.die d).point = if s.mayStep d = true ∧ (s.die d).point ≠ 3 then (s.die d).point + 1 else (s.die d).point)
      ∧ (mw ≤ t.envelope → s.lead.holdoff ≠ 0 → Completes (.powerWindow mw) s fun u =>
        begun u ∧ u = { s with lead := { s.lead with clsNow := u.lead.clsNow, watts := u.lead.watts, holdoff := s.lead.holdoff - 1 } })
      ∧ (let can := fun (d : Nat) => d < 25 ∧ s.mayStep d = true ∧ (s.die d).point ≠ 0 ∧ (s.die d).held = false ∧ (s.die d).ramp = none
        10 * mw < 9 * t.envelope → s.lead.holdoff = 0 → 2 ≤ s.lead.state → can die →
        (∀ d, can d → (s.die d).point < x.point ∨ ((s.die d).point = x.point ∧ die ≤ d)) → Completes (.powerWindow mw) s fun u =>
          begun u ∧ (∀ d, u.die d = if d = die then { x with ramp := some (x.point - 1), rest := 2 } else s.die d)
          ∧ u = { s with dies := u.dies, lead := { s.lead with clsNow := u.lead.clsNow, watts := u.lead.watts } }))
    ∧ (∀ p, x.ramp = some p → s.stewards die = true → (∀ w, (s.core w).f.dvfsEn = false) → Completes (.dvfsStepUpSwitch die) s fun u =>
        (∀ d, u.die d = if d = die then { x with point := p, ramp := none } else s.die d) ∧ Posted s u 0x20 3
        ∧ u = { s with dies := u.dies, lead := { s.lead with toPost := u.lead.toPost } })
    ∧ (∀ ma, let past := 11 * (limitsOf s.lead.clsNow.toNat).envelope < 400 * ma
      (past → Completes (.currentLimit ma) s fun u => Posted s u 0x20 10 ∧ ∀ d, d < 25 → s.dieUp d = true →
          (u.die d).point = 3 ∧ (u.die d).rest = 2 ∧ (u.die d).ramp = none)
      ∧ (¬ past → Keeps (.currentLimit ma) s))
    ∧ (∀ rs : List Nat, s.dieUp die = true →
      let at_ := fun (i : Nat) => tempOf (reading (rs.getD i 0))
      let stack := dieStacks die
      let port := (dieBlock die).isSome = true
      let trips := (∃ k, k < 30 ∧ t.trip ≤ at_ k) ∨ (stack ≠ [] ∧ t.stackTrip ≤ at_ 30) ∨ (port ∧ t.portTrip ≤ at_ (30 + stack.length))
      (trips → Completes (.sensorSample die rs) s fun u => Tripped s u)
      ∧ (¬ trips → Completes (.sensorSample die rs) s fun u => (u.die die).cls = s.declared
        ∧ (∀ k, k < 30 →
          let g := 30 * die + k
          let y := s.grove g
          (u.grove g).temp = reading (rs.getD k 0)
          ∧ tempOf (u.grove g).peak = max (tempOf y.peak) (at_ k)
          ∧ ((y.state = 1 ∨ (y.state = 2 ∧ y.on = true) ∨ y.state = 3 ∨ y.state = 5) → t.deep ≤ at_ k → (u.grove g).state = 4)
          ∧ ((y.state = 1 ∨ (y.state = 2 ∧ y.on = true) ∨ y.state = 5) → t.light ≤ at_ k → at_ k < t.deep → s.stewards die = true → (u.grove g).state = 3)
          ∧ (y.state = 1 → at_ k < t.light → x.updating = false → (u.grove g).state = 1))
        ∧ (s.stewards die = true → (∃ k, k < 30 ∧ t.step ≤ at_ k) → (u.die die).held = true
          ∧ (u.die die).point = if x.rest ≤ 1 ∧ x.point ≠ 3 then x.point + 1 else x.point)
        ∧ (s.stewards die = true → (∀ k, k < 30 → at_ k ≤ t.step - 20) → ¬ port → (u.die die).held = false ∧ (u.die die).point = x.point)
        ∧ (∀ k, stack = [k] → t.throttle < at_ 30 → u.lead.throttled.getLsbD k = true)
        ∧ (∀ k, stack = [k] → at_ 30 ≤ t.throttle - 20 → u.lead.throttled.getLsbD k = false)))
    ∧ (s.dieUp die = true → (Completes (.thermalGuardTrip die none) s fun u => Tripped s u)
      ∧ ∀ k, k < 30 → let g := 30 * die + k
        ((s.grove g).state = 1 ∨ (s.grove g).state = 2 ∨ (s.grove g).state = 3 ∨ (s.grove g).state = 5) →
          Completes (.thermalGuardTrip die (some g)) s fun u => (u.grove g).state = 4
            ∧ ∀ j, x.updating = true → s.lead.fw = some j → j.load = false → j.left.head? = some die →
              u.lead.fw = none ∧ (u.die die).updating = false)

/-- R398, R419, R422, R423, R425, R426, R428 to R430, R436, R437, R439, R440: GROVE_SERVICE fences, tests, returns and serves a grove; a test that
finds nothing passes, one failing position of a row, by memory or by its signature, sets its code, two or the row's own make the grove unavailable; a power step switches on the next grove of
the sequence, or one that waits; a probe that reads a new count clears a core's failures, and the fourth in a row that reads the last one
again, or does not return, loses the core; a die whose stewards do not answer loses them; and a lost trunk takes its groves and ports with it.
Readings and choices of the model it rests on: log 46, 48, 61. -/
def Obligations.GroveServiceAndLossRows : Prop :=
  ∀ (s : State) (q : Nat) (c : Cmd) (rest : List Cmd) (g die : Nat), g < 750 → die < 25 →
    let x := s.grove g
    let quiet := ∀ w ∈ groveCores g, (s.core w).t.inbox = [] ∧ (s.core w).t.held = []
    let becomes := fun (u : State) (y : Grove) => ∀ k, u.grove k = if k = g then y else s.grove k
    let op := c.n 12 1
    let fenced := fun (t : State) => becomes t { x with fence := true, gated := false, tested := false }
      ∧ (∀ w, t.core w = if w ∈ groveCores g then { s.core w with t := { (s.core w).t with idleCnt := 0 } } else s.core w)
      ∧ ∀ e, (s.engine e).xfers = [] → t.engine e = s.engine e
    let patterns := if c.n 13 1 = 0 then 16384 else 1024 * c.n 13 1
    let gone := fun (u : State) => ∀ k, u.pair k = if k = q then { s.pair q with admitted := rest } else s.pair k
    (s.front q c rest → c.opcode = 0x0D → c.n 8 4 = g →
      (op % 8 = 0 → x.fence = false → quiet → Completes (.groveServiceFence q) s fun u => ∃ t, Ends t u c rest 0 0
          ∧ fenced t ∧ t = { s with groves := t.groves, cores := t.cores, engines := t.engines })
      ∧ (op % 8 = 1 → x.state = 5 → s.lead.tests = [] → Completes (.groveServiceTest q) s fun u =>
          gone u ∧ u = { s with pairs := u.pairs, lead := { s.lead with tests := [{ grove := g, cmd := some c, patterns := patterns }] } })
      ∧ (op % 8 = 2 → Completes (.groveServiceReturn q) s fun u =>
          gone u ∧ u = { s with pairs := u.pairs, lead := { s.lead with returns := s.lead.returns ++ [(g, some c, 0)] } })
      ∧ (op % 8 = 3 → x.state = 1 → quiet → s.lead.tests = [] → Completes (.groveServiceService q) s fun u =>
          gone u ∧ fenced u
          ∧ u = { s with pairs := u.pairs, groves := u.groves, cores := u.cores, engines := u.engines
                         lead := { s.lead with tests := [{ grove := g, cmd := some c, service := true, patterns := patterns }] } }))
    ∧ (s.lead.tests = [{ grove := g, cmd := some c }] → (s.pair c.pair).fetched = [] → c.wantsBlock = false → s.dieUp (dieOfGrove g) = true →
        x.retired = [] → x.codes = [] → quiet →
      let expected := fun (p : Nat) => if p % 18 = 17 then Config.rowSig else Config.coreSig (s.die s.leadDie).digest 16384
      let tested := fun (memory : List Nat) (sigs : List (Nat × DWord)) (detail : Nat) (P : State → Prop) =>
        Completes (.groveTestDone g ⟨memory, sigs⟩) s fun u =>
          ∃ t, Ends t u c (s.pair c.pair).admitted 0 detail ∧ t.lead.tests = [] ∧ (t.grove g).tested = true ∧ P t
          ∧ (t.grove g).lfsr = Config.lfsr (64 * 16384)
          ∧ ∀ p, p < 288 → sget 0 (t.grove g).sigs p = ((sigs.find? fun q => decide (q.1 = p)).map (·.2)).getD (expected p)
      let same := fun (t : State) (codes : Sparse (BitVec 5)) =>
        becomes t { x with codes := codes, tested := true, lfsr := (t.grove g).lfsr, sigs := (t.grove g).sigs }
        ∧ ∀ w, t.core w = if w ∈ groveCores g then { (s.core w).initField with t := { (s.core w).initField.t with session := 0 } } else s.core w
      tested [] [] (if s.lead.fwValid then 0 else 3) (same · [])
      ∧ ∀ r k sig, r < 16 → k < 16 → tested [18 * r + k] [] (1 + 2 ^ 8 + 2 ^ 16) (same · [(r, BitVec.ofNat 5 k)])
        ∧ (sig ≠ expected (18 * r + k) → s.lead.fwValid = true →
            tested [] [(18 * r + k, sig)] (1 + 2 ^ 8 + 2 ^ 16) (same · [(r, BitVec.ofNat 5 k)]))
        ∧ (s.lead.fwValid = false → tested [] [(18 * r + k, sig)] 3 (same · []))
        ∧ (sig ≠ Config.rowSig → tested [] [(18 * r + 17, sig)] (2 + 2 ^ 16) fun t => (t.grove g).state = 6 ∧ (t.grove g).code r = 31)
        ∧ ∀ j, j < 17 → j ≠ k → tested [18 * r + k, 18 * r + j] [] (2 + 2 ^ 8 * 2 + 2 ^ 16) fun t =>
            (t.grove g).state = 6 ∧ (t.grove g).code r = 31)
    ∧ (s.lead.closed = true → s.stewards s.leadDie = true →
      (g = s.lead.gstep → x.unavail = false → Completes .grovePowerStep s fun u => becomes u { x with on := true }
          ∧ (∀ w, u.core w = if w ∈ groveCores g then (s.core w).initField else s.core w)
          ∧ u = { s with groves := u.groves, cores := u.cores, lead := { s.lead with gstep := g + 1 } })
      ∧ (750 ≤ s.lead.gstep → s.nextStep = some g → x.deep = true → Completes .grovePowerStep s fun u =>
          becomes u { x with deep := false, on := true, cool := 0, wantStep := false }
          ∧ (∀ w, u.core w = if w ∈ groveCores g then (s.core w).initField else s.core w) ∧ Posted s u 0x20 7)
      ∧ (750 ≤ s.lead.gstep → s.nextStep = some g → x.deep = false → s.lead.returns = [(g, some c, 0)] → (s.pair c.pair).fetched = [] →
          Completes .grovePowerStep s fun u => ∃ t, Ends t u c (s.pair c.pair).admitted 0 0 ∧ t.lead = { s.lead with returns := [] }
            ∧ becomes t { x with fence := false, tested := false, on := true }))
    ∧ (s.stewards die = true →
      let on := fun (w : Nat) => coreOk w = true ∧ dieOf w = die ∧ s.gstate w = 1
      let late := fun (mute : List Nat) (w : Nat) => w ∈ mute ∨ (s.core w).t.alive = (s.core w).t.aliveSeen
      let probed := fun (mute : List Nat) (w : Nat) => { s.core w with t := { (s.core w).t with
        aliveSeen := if w ∈ mute then (s.core w).t.aliveSeen else (s.core w).t.alive
        probeFail := if late mute w then (s.core w).t.probeFail + 1 else 0 } }
      (∀ mute, (∀ w, on w → late mute w → (s.core w).t.probeFail < 3) → Completes (.livenessProbe ⟨die, mute⟩) s fun u =>
          u = { s with cores := u.cores } ∧ ∀ w, (on w → u.core w = probed mute w) ∧ (¬ on w → u.core w = s.core w))
      ∧ (∀ mute w, on w → groveOf w = g → late mute w → (s.core w).t.probeFail = 3 →
          (∀ v, on v → v ≠ w → ¬ late mute v) → s.lead.tests = [] → s.loadedStands = [] →
          Completes (.livenessProbe ⟨die, mute⟩) s fun u => (u.grove g).state = 5 ∧ u.lead.tests = [{ grove := g }] ∧ Reported s u 7 w))
    ∧ (s.dieUp die = true →
      let y := s.die die
      (y.updating = false → y.stewLost = false → s.lead.fwValid = true → die ≠ s.leadDie →
        (y.beat = true → ∀ b, Completes (.dieHeartbeatLossProbe die b) s fun u => u = { s with dies := u.dies }
          ∧ ∀ d, u.die d = if d = die then { y with beat := false } else s.die d)
        ∧ (y.beat = false → Completes (.dieHeartbeatLossProbe die true) s fun u => Posted s u 0x21 12
          ∧ (∀ d, u.die d = if d = die then { y with stewLost := true } else s.die d) ∧ u = { s with dies := u.dies, lead := u.lead }))
      ∧ (Completes (.dieTrunkLost die) s fun u => (∀ d, u.die d = if d = die then { y with lost := true } else s.die d)
        ∧ (∀ k, k < 750 → dieOfGrove k = die → (u.grove k).state = 6) ∧ (s.loadedStands = [] → ∀ k, k < 750 → dieOfGrove k ≠ die → u.grove k = s.grove k)
        ∧ (∀ m, m < 64 → portDie m = die → (u.port m).lost = true ∧ (u.port m).reqs = [])
        ∧ (∃ r, u.lead.toPost.getLast? = some (.record r) ∧ r.type = 0x21 ∧ r.body.head? = some 11)
        ∧ (die = 2 → u.cxl.link = false)))


/-! ## Identity, sessions and firmware (chapters 19, 20) -/

/-- R326, R443, R446 to R448, R450 to R453, R456, R457, R459 to R462: a malformed message gets FORMAT; GET_IDENTITY, ATTEST, KEY_EXCHANGE, CLOSE and
IDE_KEYS get their reply or their error; the link keys switch; SESSION confirms identities, seals and zeroes a region, imports and
exports, unseals, and closes a session with nothing left in it.
Readings and choices of the model it rests on: log 8, 49, 50. -/
def Obligations.AttestationAndSessionRows : Prop :=
  ∀ (s : State) (q : Nat) (c : Cmd) (rest : List Cmd) (msg : List Byte),
    let at_ := fun (lo k : Nat) => natOfBytes ((msg.drop lo).take k)
    let n := at_ 2 2
    let reply := fun (i : Instr) (bs : List Byte) => exec i s = .next { s with cxl := { s.cxl with doe := bs } }
    let head := fun (type session len : Nat) => [BitVec.ofNat 8 type, 1] ++ bytesOfNat 2 session ++ bytesOfNat 4 len
    let error := fun (i : Instr) (session code : Nat) => reply i (head 0xFF session 9 ++ [BitVec.ofNat 8 code])
    let well := fun (type len : Nat) => at_ 0 1 = type ∧ at_ 1 1 = 1 ∧ at_ 4 4 = msg.length ∧ msg.length = len
    let known := (s.die s.leadDie).pubKey ≠ []
    let host := fun (lo k : Nat) => readBytes s.hostMem (s.lead.winBase.toNat + lo) k
    let done := fun (i : Instr) (w : State → Prop) (st d : Nat) => Completes i s fun u => ∃ t, w t ∧ Ends t u c rest st d
    let others := fun (t : State) (P : Session → Session → Prop) => t.lead.sessions.length = s.lead.sessions.length
      ∧ ∀ (j : Nat) (a b : Session), s.lead.sessions[j]? = some a → t.lead.sessions[j]? = some b → if a.id = c.session then P a b else b = a
    (s.cxl.link = true → s.stewards s.leadDie = true →
      ((at_ 0 1 = 1 → at_ 1 1 ≠ 1 → error (.getIdentity msg) n 2) ∧ (at_ 0 1 = 2 → msg.length ≠ 56 → error (.attest msg) n 2))
      ∧ (well 1 8 → Completes (.getIdentity msg) s fun u => u = { s with cxl := { s.cxl with doe := u.cxl.doe } }
          ∧ u.cxl.doe.length = 12 + 25 * 97 ∧ u.cxl.doe.take 12 = head 0x81 0 (12 + 25 * 97) ++ bytesOfNat 4 s.idMap
          ∧ ∀ d, d < 25 → (s.die d).pubKey.length = 97 → ((u.cxl.doe.drop (12 + 97 * d)).take 97 = (s.die d).pubKey ∧ s.idMap.testBit d = true))
      ∧ (well 2 56 → ((¬ known → error (.attest msg) 0 1)
          ∧ (known → Completes (.attest msg) s fun u => u = { s with cxl := { s.cxl with doe := u.cxl.doe } } ∧ u.cxl.doe.length = 1764
            ∧ u.cxl.doe.take 104 = head 0x82 0 1764 ++ msg.drop 8 ++ bytesOf 48 s.moduleId)))
      ∧ (well 3 153 → ((¬ known → error (.keyExchange msg) 0 1)
          ∧ (known → (s.lead.fwValid = false ∨ 16 ≤ s.lead.sessions.length) → error (.keyExchange msg) 0 3)
          ∧ (known → s.lead.fwValid = true → s.lead.sessions.length < 16 → s.lead.nextSession ≤ 0xFFFF → Completes (.keyExchange msg) s fun u =>
            let root := Config.hkdfExtract (bytesOf 48 (Config.sha384 (msg.drop 8))) (Config.ecdh s.lead.eph (msg.drop 8 |>.take 97))
            if Config.onCurve (msg.drop 8 |>.take 97) = true then
              (∃ y, y.id = s.lead.nextSession ∧ y.root = root
                ∧ y.keys = Config.hkdfExpand root (ascii "gq mem") 64 ++ Config.hkdfExpand root (ascii "gq imp") 32
                  ++ Config.hkdfExpand root (ascii "gq exp") 32 ++ Config.hkdfExpand root (ascii "gq ctl") 32
                ∧ y.closing = false ∧ y.seqIn = 0 ∧ y.seqOut = 0
                ∧ u.lead = { s.lead with
                    sessions := s.lead.sessions ++ [y], nextSession := s.lead.nextSession + 1, eph := s.lead.eph + 1 })
              ∧ u.cxl.doe.length = 1764 ∧ u.cxl.doe.take 8 = head 0x83 s.lead.nextSession 1764 ∧ u = { s with lead := u.lead, cxl := u.cxl }
            else u = { s with cxl := { s.cxl with doe := head 0xFF 0 9 ++ [5] } })))
      ∧ (well 4 24 → (s.session n = none → error (.closeMessage msg) n 6)
        ∧ ∀ y, s.session n = some y → y.closing = false → s.loadedStands = [] → (s.cores.all fun p => decide (p.2.t.session ≠ n)) = true →
          (s.lead.regions.all fun r => decide (r.session ≠ n)) = true → (∀ e, (s.eth e).flows.all (fun p => decide (p.2.session ≠ n)) = true) →
          (∀ d ∈ s.leadCommands, d.session ≠ n) → Completes (.closeMessage msg) s fun u =>
          if Config.gmac ((y.keys.drop 128).take 32) (msg.take 8) = msg.drop 8 then
            u = { s with
              lead := { s.lead with sessions := s.lead.sessions.filter fun z => !decide (z.id = n) }
              cxl := { s.cxl with doe := head 0x84 n 8 } }
          else u = { s with cxl := { s.cxl with doe := head 0xFF n 9 ++ [4] } })
      ∧ (at_ 0 1 = 5 → at_ 1 1 = 1 → at_ 4 4 = msg.length → 36 ≤ msg.length → (s.session n = none → error (.ideKeys msg) n 6)
        ∧ ∀ y, s.session n = some y → Completes (.ideKeys msg) s fun u =>
          match Config.gcmOpen ((y.keys.drop 128).take 32) ((msg.drop 8).take 12) [] ((msg.drop 20).take (msg.length - 36)) (msg.drop (msg.length - 16)) with
          | some k => u = { s with cxl := { s.cxl with ideNext := some k, doe := head 0x85 n 8 } }
          | none => u = { s with cxl := { s.cxl with doe := head 0xFF n 9 ++ [4] } })
      ∧ reply (.doeDiscovery 0) [1, 0, 0, 1])
    ∧ (∀ k, s.cxl.ideNext = some k → exec .ideKeySwitch s = .next { s with cxl := { s.cxl with ide := some k, ideNext := none } })
    ∧ (s.front q c rest → c.opcode = 0x10 → s.cxl.link = true → s.cxl.cut = false → s.cxl.leadFails = false →
      let a := c.n 16 8
      let len := c.n 24 8
      (c.n 8 1 = 0 → done (.sessionIdentity q) (fun t => t.lead = { s.lead with idDone := true } ∧ t = { s with dies := t.dies, lead := t.lead }
          ∧ ∀ d, d < 25 →
            let helper := host (a + 2048 * d) 1024
            let cert := host (a + 2048 * d + 1032) 97
            t.die d = { s.die d with pubKey := if s.dieUp d = true ∧ Config.pufKey d helper = cert then cert else [] }) 0 0)
      ∧ (∀ y, s.session c.session = some y →
        (c.n 8 1 = 1 → done (.sessionSeal q) (fun t => t.lead = { s.lead with regions := s.lead.regions ++ [⟨a, 4096 * len, c.session⟩] }
          ∧ t = { s with mem := t.mem, ports := t.ports, lead := t.lead }
          ∧ ∀ i m po, i < len → s.mapAddr (a + 4096 * i) = .inr (m, po) → ∀ b, b < 4096 → sget 0 t.mem (memKey m po + b) = 0) 0 0)
        ∧ (c.n 8 1 = 2 → len = 96 →
          let blob := host a 96
          let h := fun (lo k : Nat) => natOfBytes ((blob.drop lo).take k)
          h 0 4 = 0x42505147 → h 4 2 = 1 → h 6 2 = y.id → h 24 8 = 16 → Completes (.sessionImport q) s fun u => ∃ t, t = { s with lead := { s.lead with sessions := t.lead.sessions } } ∧
            match Config.gcmOpen ((y.keys.drop 64).take 32) ((blob.drop 32).take 12) (blob.take 64) ((blob.drop 64).take 16) (blob.drop 80) with
            | none => t = s ∧ Ends t u c rest 0x06 6
            | some p =>
              let f := fun (lo k : Nat) => natOfBytes ((p.drop lo).take k)
              if h 8 8 ≤ y.seqIn then t = s ∧ Ends t u c rest 0x06 7
              else Ends t u c rest 0 0 ∧ others t fun x z => z = { x with
                seqIn := h 8 8, work := Config.sha384 (bytesOf 48 x.work ++ bytesOf 48 (Config.sha384 (blob.take 64 ++ p)))
                dbgBase := f 0 4, dbgLen := f 4 4, relCounts := decide (f 8 1 % 2 = 1), relStall := decide (f 8 1 / 2 % 2 = 1) })
        ∧ (c.n 8 1 = 3 → ∀ p v, s.heldBy a len = [] → s.devRead a len y.id = (0, p, v) → done (.sessionExport q) (fun t => ∃ bs, Laid s.hostMem t.hostMem (s.lead.winBase.toNat + c.n 32 8) bs
          ∧ bs.take 44 = bytesOfNat 4 0x42505147 ++ [0, 0] ++ bytesOfNat 2 y.id ++ bytesOfNat 8 (y.seqOut + 1) ++ bytesOfNat 8 a ++ bytesOfNat 8 len
              ++ bytesOfNat 8 (y.seqOut + 1) ++ [0, 0, 0, 0]
          ∧ bs.drop 64 = Config.gcmSeal ((y.keys.drop 96).take 32) (bytesOfNat 8 (y.seqOut + 1) ++ [0, 0, 0, 0]) (bs.take 64) p
          ∧ (others t fun x z => z = { x with seqOut := y.seqOut + 1 }) ∧ v.lead = s.lead
          ∧ t = { v with hostMem := t.hostMem, lead := { v.lead with sessions := t.lead.sessions } }) 0 0)
        ∧ (c.n 8 1 = 4 → y.closing = false → s.loadedStands = [] → (s.cores.all fun p => decide (p.2.t.session ≠ c.session)) = true →
          (s.lead.regions.all fun r => decide (r.session ≠ c.session)) = true → (∀ e, (s.eth e).flows.all (fun p => decide (p.2.session ≠ c.session)) = true) →
          (∀ d ∈ s.leadCommands, d.session = c.session → d = c) → done (.sessionClose q) (· = { s with lead := { s.lead with
            sessions := s.lead.sessions.filter fun z => !decide (z.id = c.session) } }) 0 0)
        ∧ (c.n 8 1 = 5 → ∀ r, (∀ k ∈ s.lead.regions, k.base = a → k = r) → r ∈ s.lead.regions → r.base = a → r.session = c.session →
          done (.sessionUnseal q) (fun t => t.lead = { s.lead with regions := s.lead.regions.erase r } ∧ t = { s with mem := t.mem, ports := t.ports, lead := t.lead }
            ∧ ∀ i m po, 4096 * i + 4096 ≤ r.len → s.mapAddr (a + 4096 * i) = .inr (m, po) → ∀ b, b < 4096 → sget 0 t.mem (memKey m po + b) = 0) 0 0)))

/-- R5, R10, R301, R395, R402, R416, R417, R443, R444, R465 to R473, R476, R477, R505 to R510: the supplies start the module once armed and a trip ends it;
trunks power up and report, or are missing; stacks train and are zeroed; the link comes up; Thyme and self-test report; firmware is
verified, runs and is measured, or its dies are named; and a function reset empties the rings and returns to the personality.
Readings and choices of the model it rests on: log 51, 52, 53. -/
def Obligations.StartUpFirmwareAndResetRows : Prop :=
  ∀ (s : State) (q : Nat) (c : Cmd) (rest : List Cmd) (die port mv : Nat), die < 25 → port < 64 →
    let p := s.input
    let supply := fun (i : Instr) (x : Input) => exec i s = .next { s with input := x }
    let lone := fun (u : State) (y : Die) => u = { s with dies := u.dies } ∧ ∀ d, u.die d = if d = die then y else s.die d
    let host := readBytes s.hostMem (s.lead.winBase.toNat + c.n 8 8) (c.n 16 4)
    let gone := fun (u : State) => ∀ k, u.pair k = if k = q then { s.pair q with admitted := rest } else s.pair k
    (p.armed = true → p.run = false → supply .powerApplied { p with vin := true, run := true, rails := true }
      ∧ supply .startAbandoned { p with vin := false, armed := false, trip := true })
    ∧ ((p.armed = false ∨ p.run = true) → Keeps .powerApplied s)
    ∧ (p.run = true → (∀ k, Completes (.trip k die) s fun u => Tripped s u) ∧ (Completes (.converterFault die) s fun u => Tripped s u)
        ∧ (Completes .inputPowerRemoved s fun u => ∃ t, Tripped s t ∧ u = { t with input := { t.input with vin := false } })
        ∧ ((62000 < mv ∨ mv < 38000) → Completes (.inputVoltageOutOfRange mv) s fun u => Tripped s u))
    ∧ (p.run = false → supply .rearm { p with vin := false, armed := true, trip := false })
    ∧ (∀ dx dy : BitVec 3, (4 < dx.toNat ∨ 4 < dy.toNat ∨ die = 5 * dy.toNat + dx.toNat) → p.rails = true → (s.die die).phase = 0 →
        Completes (.trunkPowerUp ⟨die, dx, dy⟩) s fun u => lone u { s.die die with phase := 1, coord := some (dx, dy), cyc := 0, stewCyc := 0 })
    ∧ (∀ dx dy : BitVec 3, (s.die die).phase = 1 → (s.die die).coord = some (dx, dy) → ∀ ok, (∃ d, d < 25 ∧ d ≠ die ∧ (s.die d).phase ≠ 2) →
        Completes (.trunkBistDone die ok) s fun u =>
        lone u { s.die die with phase := if ok = true ∧ dx.toNat ≤ 4 ∧ dy.toNat ≤ 4 then 2 else 3 })
    ∧ (∀ dx dy : BitVec 3, (s.die die).phase = 1 → (s.die die).coord = some (dx, dy) → dx.toNat ≤ 4 → dy.toNat ≤ 4 → (∀ d, d < 25 → d ≠ die → (s.die d).phase = 2) → Completes (.trunkBistDone die true) s fun u =>
        u.lead = { s.lead with closed := true } ∧ u.dieMap = s.dieMap + if (s.die die).missing || (s.die die).lost then 0 else 2 ^ die)
    ∧ ((s.die 2).phase = 2 → s.lead.closed = false → Completes .leadReportTimeout s fun u => u.lead.closed = true
        ∧ (∀ d, d < 25 → (u.die d).missing = ((s.die d).missing || decide ((s.die d).phase ≠ 2)))
        ∧ (∀ m, m < 64 → u.lead.absent.getLsbD m = (s.lead.absent.getLsbD m || decide ((s.die (portDie m)).phase ≠ 2)))
        ∧ ∀ g, g < 750 → (u.grove g).unavail = ((s.grove g).unavail || decide ((s.die (dieOfGrove g)).phase ≠ 2)))
    ∧ (s.dieUp (portDie port) = true →
      let x := s.port port
      let is := fun (u : State) (y : Port) => ∀ m, u.port m = if m = port then y else s.port m
      (x.train = 0 → (Completes (.stackTrainingDone port true) s fun u => u = { s with ports := u.ports } ∧ is u { x with train := 1 })
        ∧ (Completes (.stackTrainingDone port false) s fun u => is u { x with train := 3 } ∧ u.lead.absent.getLsbD port = true
          ∧ u.lead.failed.getLsbD port = true ∧ u = { s with ports := u.ports, lead := { s.lead with absent := u.lead.absent, failed := u.lead.failed } }))
      ∧ (x.train = 1 → Completes (.stackZeroingDone port) s fun u => u = { s with ports := u.ports, mem := u.mem } ∧ is u { x with train := 2, err := [] }
        ∧ ∀ a, sget 0 u.mem a = if memKey port 0 ≤ a ∧ a < memKey port 0 + 2 ^ 35 then 0 else sget 0 s.mem a))
    ∧ (s.dieUp 2 = true → p.perst = false → exec .cxlLinkUp s = .next { s with cxl := { s.cxl with link := true } })
    ∧ (s.cxl.link = false → Keeps .cxlLinkDown s ∧ supply .perstAssert { p with perst := true } ∧ supply .perstDeassert { p with perst := false })
    ∧ (s.lead.state = 0 → s.lead.closed = true → s.cxl.link = true → (∀ m, m < 64 → s.dieUp (portDie m) = true → 2 ≤ (s.port m).train) →
        Completes .thymeEntry s fun u => Posted s u 0x23 0
          ∧ u = { s with cxl := { s.cxl with memActive := true }, lead := { s.lead with state := 1, toPost := u.lead.toPost } })
    ∧ (750 ≤ s.lead.gstep → s.lead.fwValid = true → s.lead.state = 1 → s.lead.selfTest = false → Completes .powerupSelfTest s fun u => u.lead.selfTest = true
        ∧ ∀ g, g < 750 → (u.grove g).selfTest = ((s.grove g).selfTest || decide ((s.grove g).state ≠ 3 ∧ (s.grove g).state ≠ 4 ∧ (s.grove g).state ≠ 6)))
    ∧ (s.lead.selfTest = true → (∀ g, (s.grove g).retired = []) →
      let done := fun (memory : List (Nat × Nat)) (sigs trunk : List (Nat × Nat × DWord)) (P : State → Prop) =>
        Completes (.powerupSelfTestDone ⟨memory, sigs, trunk⟩) s fun u => u.lead.state = 2 ∧ u.lead.selfTest = false ∧ Posted s u 0x23 1
          ∧ (∀ g, g < 750 → (s.grove g).unavail = false → (u.grove g).selfTest = false) ∧ P u
      done [] [] [] (fun _ => True)
      ∧ ∀ g r k sig, g < 750 → (s.grove g).unavail = false → (s.grove g).selfTest = true → r < 16 → k < 16 →
        let repaired := fun (u : State) => (u.grove g).code r = BitVec.ofNat 5 k ∧ (u.grove g).unavail = false
        done [(g, 18 * r + k)] [] [] repaired
        ∧ (sig ≠ Config.coreSig (s.die s.leadDie).digest 16384 → done [] [(g, 18 * r + k, sig)] [] repaired)
        ∧ (sig ≠ expectedTrunk g (18 * r + k) → done [] [] [(g, 18 * r + k, sig)] repaired))
    ∧ (s.front q c rest → s.cxl.link = true → s.cxl.cut = false → s.cxl.leadFails = false →
      (c.opcode = 0x0E → c.n 20 1 = 1 → Completes (.fwLoadSetState q) s fun u => ∃ t, t = { s with lead := { s.lead with
          state := BitVec.ofNat 3 (c.n 21 1) } } ∧ Ends t u c rest 0 0)
      ∧ (c.opcode = 0x0E → c.n 20 1 = 0 → Completes (.fwLoadLoad q) s fun u => if imageOk host (c.n 16 4) = true then gone u
          ∧ u = { s with pairs := u.pairs, lead := { s.lead with
              fw := some { cmd := c, load := true, image := host, left := (List.range 25).filter s.dieUp } } }
        else Ends s u c rest 0x06 5)
      ∧ (c.opcode = 0x0F → c.n 20 4 = 2 ^ die → Completes (.fwUpdate q) s fun u => if imageOk host (c.n 16 4) = true then gone u
          ∧ (∀ d, u.die d = if d = die then { s.die d with updating := true } else s.die d)
          ∧ u = { s with pairs := u.pairs, dies := u.dies, lead := { s.lead with
              leadAlt := s.lead.leadAlt || decide (die = 2), fw := some { cmd := c, load := false, image := host, left := [die] } } }
        else Ends s u c rest 0x06 5))
    ∧ (∀ j : FwJob, s.lead.fw = some j → j.left = [die] → j.dropped = false → (s.pair j.cmd.pair).fetched = [] → s.dieUp die = true →
      let ended := fun (i : Instr) (st d : Nat) (P : State → Prop) => Completes i s fun u => ∃ t, P t ∧ t.lead.fw = none
        ∧ Ends t u j.cmd (s.pair j.cmd.pair).admitted st d
      let runs := fun (t : State) (d : Nat) => (t.die d).digest = Config.sha384 j.image ∧ (t.die d).version = BitVec.ofNat 32 (natOfBytes ((j.image.drop 4).take 4))
      (j.load = true → j.failed = [] → ended (.dieFwReady die true) 0 0 fun t => t.lead.fwValid = true ∧ ∀ d, d < 25 → s.dieUp d = true → runs t d)
      ∧ (j.load = true → j.failed = [] → ended (.dieFwReady die false) 0x05 (2 ^ die) fun t => t = { s with lead := { s.lead with fw := none } })
      ∧ (j.load = false → j.done = [] → (s.die die).queue = [] → ended (.dieFwReady die true) 0 (2 ^ die) fun t => runs t die ∧ (t.die die).updating = false ∧ Posted s t 0x20 12)
      ∧ (j.load = false → j.done = [] → ended (.dieFwReady die false) 0x05 (2 ^ 25 * die) fun t => (t.die die).updating = false
          ∧ (t.die die).digest = (s.die die).digest))
    ∧ (s.cxl.link = true →
      let cleared := fun (u : State) (link : Bool) => u.pairs = [] ∧ u.events = {} ∧ u.debug = {} ∧ u.lead.sessions = [] ∧ u.lead.backlog = [] ∧ u.lead.dmaWait = []
        ∧ u.cxl = { link := link, memActive := s.cxl.memActive, cut := s.cxl.cut, leadFails := s.cxl.leadFails, direct := s.cxl.direct }
        ∧ u.lead.state = if s.lead.state = 0 then 0 else if s.lead.fwValid then 2 else 1
      (Completes .functionReset s fun u => cleared u true) ∧ (Completes .cxlLinkDown s fun u => cleared u false)
      ∧ Completes .perstAssert s fun u => cleared u false ∧ u.input = { p with perst := true })

/-- R463, R498, R499, R510: while 3V3_AUX is present the board-test port takes its instructions, SAMPLE_PRELOAD and EXTEST only with the
converters on, and the management target takes its address and answers its registers; without it nothing answers. -/
def Obligations.BoardTestAndManagementRows : Prop :=
  ∀ (s : State) (pins : List Bool) (addr : BitVec 7) (reg : Nat),
    let rows := [Instr.bypass, .idcode, .samplePreload pins, .extest, .entdaa addr, .i3cPrivateRead reg]
    let takes := fun (i : Instr) (b : BoardTest) => exec i s = .next { s with bt := b }
    exec .auxSupplyApplied s = .next { s with input := { s.input with aux := true } }
    ∧ exec .auxSupplyRemoved s = .next { s with input := { s.input with aux := false }, bt := {} }
    ∧ (s.input.aux = false → ∀ i ∈ rows, Keeps i s)
    ∧ (s.extestDrives = true ↔ s.bt.instr = 3 ∧ s.input.run = true ∧ s.cxl.link = false ∧ ∀ e, e < 8 → (s.eth e).rate = 0)
    ∧ (s.input.aux = true →
      let word := fun (x : Nat) => bytesOfNat 4 (if s.input.run then x else 0)
      takes .bypass { s.bt with instr := 0 } ∧ takes .idcode { s.bt with instr := 1, idcode := bytesOf 4 Config.idcode }
      ∧ (s.input.run = true → takes (.samplePreload pins) { s.bt with instr := 2, pins := pins } ∧ takes .extest { s.bt with instr := 3 })
      ∧ (s.input.run = false → Keeps (.samplePreload pins) s ∧ Keeps .extest s)
      ∧ takes (.entdaa addr) { s.bt with i3c := some addr }
      ∧ (s.bt.i3c.isSome = true →
        takes (.i3cPrivateRead 0x00) { s.bt with answer := word (s.lead.state.toNat + 8 * b2n s.lead.fwValid + 16 * b2n s.lead.leadAlt) }
        ∧ takes (.i3cPrivateRead 0x04) { s.bt with answer := word (s.dieMap % 2 ^ 32) }
        ∧ takes (.i3cPrivateRead 0x08) { s.bt with answer := word (s.lead.watts % 2 ^ 32) }
        ∧ ∀ d, d < 25 → (s.die d).pubKey.length = 97 → s.input.run = true →
          takes (.i3cPrivateRead (0x100 + 0x80 * d)) { s.bt with answer := (s.die d).pubKey }))

/-! ## The machine -/

/-- A step takes the command at the front of the queue and answers what it does with the rest of the queue (the queue is the row's own: log
4); on an empty queue the block idles.
Readings and choices of the model it rests on: log 4. -/
def Obligations.StepRunsTheFrontCommand : Prop :=
  (∀ (i : Instr) (s : State) (rest : List Instr), step { s with pending := i :: rest } = exec i { s with pending := rest })
  ∧ (∀ s : State, s.pending = [] → step s = .next s)

/-- R5, R426, R476, R505: State.reset is the module before input power, armed, with no command waiting: nothing runs, no die is up, no session
open, no stand loaded, no ring enabled, the memories list nothing and NEAR and ABSENT are 0; a power step has switched no grove on. -/
def ResetLeavesTheModuleOff : Prop :=
  let s := State.reset
  s.pending = [] ∧ s.input.armed = true ∧ s.input.run = false ∧ s.input.trip = false ∧ s.mem = [] ∧ s.hostMem = [] ∧ s.lead.state = 0
    ∧ s.lead.fwValid = false ∧ s.lead.sessions = [] ∧ s.lead.regions = [] ∧ s.lead.near = 0 ∧ s.lead.absent = 0 ∧ s.lead.cls = 0
    ∧ s.loadedStands = [] ∧ s.cxl.link = false ∧ s.events.en = false ∧ (s.ring 65).en = false
    ∧ (∀ d, s.dieUp d = false ∧ (s.die d).point = 3) ∧ (∀ g, (s.grove g).state = 0 ∧ ∀ r, (s.grove g).code r = 16)
    ∧ (∀ q, (s.pair q).en = false ∧ (s.pair q).cq.en = false) ∧ (∀ e, (s.eth e).rate = 0 ∧ (s.eth e).link = false)
    ∧ ∀ w t, (s.core w).enabled t = false ∧ (s.core w).f.exc.level = 0 ∧ (s.core w).f.spad.mem = []

/-- R56 to R58 with chapter 03's to 13's encodings: the word that the encoder gives a well-formed instruction decodes to that instruction, with
its condition code. -/
def Obligations.DecodeOfEncodeIsTheInstruction : Prop :=
  ∀ (k : BitVec 4) (op : Op), op.wf = true → decodeOp (encodeOp k op) = some (k, op)

/-- Every byte table of the module is in its one canonical form: keys rising, no listed byte 0. -/
def Sys2Proof.Machine.State.tablesOk (s : State) : Prop := swf 0 s.mem = true ∧ swf 0 s.hostMem = true ∧ ∀ w, swf 0 (s.core w).f.spad.mem = true

/-- The device memory, the host's memory and every scratchpad keep their canonical form through every step, from every state that has it, so
that equal memories are equal data (the row's own invariant: log 2). -/
def Obligations.EveryStepKeepsTheMemoryTables : Prop :=
  ∀ (s t : State), s.tablesOk → step s = .next t → t.tablesOk

/-- At reset the memory tables have their canonical form. -/
def ResetMemoryTablesAreCanonical : Prop := State.reset.tablesOk

/-- R5, R426, R476, R505: reset leaves the module off, and its memory tables in their canonical form (log 2).
Readings and choices of the model it rests on: log 2, 5. -/
def Obligations.ResetLeavesTheModuleOffAndItsTablesCanonical : Prop :=
  ResetLeavesTheModuleOff ∧ ResetMemoryTablesAreCanonical

/-- R57, R80, R101, R116, R171, R190, R208, R252, R280, R324: the words that the manual writes out, and words spelt bit by bit from its
layouts, decode to the instructions they stand for; a reserved opcode, function or bit decodes to nothing. -/
def Obligations.WrittenWordsDecode : Prop :=
  let is := fun (w : BitVec 32) (k : BitVec 4) (op : Op) => decodeOp w = some (k, op)
  is 0b0000_000000_00001_00010_00011_000000_1 0 (.alu .add 1 2 3 true)
    ∧ is 0b0010_000001_00100_00101_1_11111111111 2 (.aluImm .add 4 5 true (-1))
    ∧ is 0b0000_010000_00110_0111_01000_100_00011 0 (.ldr 6 7 8 4 3)
    ∧ is 0b0001_011000_1111111111111111111110 1 (.b (-2))
    ∧ is 0b0000_100000_00001_00010_00011_0011_100 0 (.vop .fma 1 2 3 4)
    ∧ is 0b0000_110001_00001_00010_0000_0001_10_11 0 (.vcvt 1 2 0 1 2 3 true)
    ∧ is 0b0000_011011_011_0111_0101_00100_00110_0 0 (.cnarrow 7 5 4 6)
    ∧ is 0x07010980 0 (.trap 0x21 3) ∧ is 0x07080700 0 (.rfe 14)
    ∧ is 0x0E000800 0 (.tcfg 0 1 0 0) ∧ is 0x0E498000 0 (.tld 2 1 true) ∧ is 0x0E90E000 0 (.mma 1 0 3 true 0 0)
    ∧ is 0x0952A6C0 0 (.vroute 9 10 6 true true) ∧ is 0x09009000 0 (.vdelta 0 9) ∧ is 0x09204280 0 (.dlframe 0 4 5)
    ∧ is 0x0F828000 0 (.ctxsw 1 1) ∧ is 0x0F881400 0 (.tsend 0 2 8 false) ∧ is 0x0F900000 0 .tend
    ∧ is 0x0F044000 0 (.mput true 2 0) ∧ is 0x0F091620 0 (.send 2 5 8 true) ∧ is 0x0F109864 0 (.recv 1 6 3 4)
    ∧ is 0x0F198030 0 (.cinc 3 0 1 true) ∧ is 0x0F219D00 0 (.cwait 3 7 8 false)
    ∧ is 0x0F40AC80 0 (.sopen 0 5 6 8) ∧ is 0x0F4A9000 0 (.snext 1 9) ∧ is 0x0F500000 0 (.sclose 0)
    ∧ decodeOp 0x02C00000 = none ∧ decodeOp 0x0000002C = none ∧ decodeOp 0x07300000 = none ∧ decodeOp 0x04C00001 = none
end

