-- ==== Sys2Proof/Laws/Sparse.lean ====
section
/-! SUPPORT. Reading after writing a sparse table, and the canonical form that every table operation keeps. -/
namespace Sys2Proof.Machine

variable {α : Type}

@[simp] theorem sget_nil (d : α) (n : Nat) : sget d [] n = d := rfl

theorem sget_cons (d : α) (k : Nat) (v : α) (m : Sparse α) (n : Nat) :
    sget d ((k, v) :: m) n = if k = n then v else sget d m n := rfl

/-- What holds of the default and of every listed entry holds of every read. -/
theorem sget_all {P : α → Prop} (d : α) (m : Sparse α) (hd : P d) (hm : ∀ p ∈ m, P p.2) (n : Nat) : P (sget d m n) := by
  induction m with
  | nil => exact hd
  | cons p m ih =>
    obtain ⟨k, v⟩ := p
    rw [sget_cons]
    split
    · exact hm (k, v) (by simp)
    · exact ih fun q hq => hm q (by simp [hq])

theorem sget_sdel (d : α) (m : Sparse α) (n k : Nat) : sget d (sdel m n) k = if k = n then d else sget d m k := by
  induction m with
  | nil => simp [sdel]
  | cons p m ih =>
    obtain ⟨i, v⟩ := p
    simp only [sdel]
    by_cases h : i = n
    · subst h
      rw [if_pos rfl, ih, sget_cons]
      by_cases hk : k = i
      · simp [hk]
      · simp [hk, Ne.symm hk]
    · rw [if_neg h, sget_cons, sget_cons, ih]
      by_cases hk : i = k
      · subst hk; simp [h]
      · simp [hk]

theorem sget_sins (d : α) (m : Sparse α) (n : Nat) (v : α) (h : ∀ p ∈ m, p.1 ≠ n) (k : Nat) :
    sget d (sins n v m) k = if k = n then v else sget d m k := by
  induction m with
  | nil => simp [sins, sget_cons, eq_comm]
  | cons p m ih =>
    obtain ⟨i, w⟩ := p
    have hi : i ≠ n := h (i, w) (by simp)
    have ih := ih fun q hq => h q (by simp [hq])
    simp only [sins]
    by_cases hlt : n < i
    · rw [if_pos hlt, sget_cons]
      simp [eq_comm]
    · rw [if_neg hlt, sget_cons, sget_cons, ih]
      by_cases hk : i = k
      · subst hk; simp [hi]
      · simp [hk]

theorem sdel_keys (m : Sparse α) (n : Nat) : ∀ p ∈ sdel m n, p.1 ≠ n := by
  induction m with
  | nil => simp [sdel]
  | cons p m ih =>
    obtain ⟨i, v⟩ := p
    simp only [sdel]
    by_cases h : i = n
    · rw [if_pos h]; exact ih
    · rw [if_neg h]
      intro q hq
      rcases List.mem_cons.1 hq with rfl | hq
      · exact h
      · exact ih q hq

/-- What a table holds after number n has been written, for any table. -/
theorem sget_sset [DecidableEq α] (d : α) (m : Sparse α) (n : Nat) (v : α) (k : Nat) :
    sget d (sset d m n v) k = if k = n then v else sget d m k := by
  unfold sset
  by_cases h : v = d
  · rw [if_pos h, sget_sdel, h]
  · rw [if_neg h, sget_sins d _ n v (sdel_keys m n), sget_sdel]
    by_cases hk : k = n
    · simp [hk]
    · simp [hk]

@[simp] theorem sget_sset_same [DecidableEq α] (d : α) (m : Sparse α) (n : Nat) (v : α) : sget d (sset d m n v) n = v := by
  simp [sget_sset]

theorem sget_sset_ne [DecidableEq α] (d : α) (m : Sparse α) {n k : Nat} (v : α) (h : k ≠ n) :
    sget d (sset d m n v) k = sget d m k := by
  simp [sget_sset, h]

theorem sget_smod [DecidableEq α] (d : α) (m : Sparse α) (n : Nat) (f : α → α) (k : Nat) :
    sget d (smod d m n f) k = if k = n then f (sget d m n) else sget d m k := sget_sset d m n _ k

theorem sdel_sdel (m : Sparse α) (n : Nat) : sdel (sdel m n) n = sdel m n := by
  induction m with
  | nil => rfl
  | cons p m ih =>
    obtain ⟨i, v⟩ := p
    by_cases h : i = n
    · simp [sdel, h, ih]
    · simp [sdel, h, ih]

theorem sdel_sins (m : Sparse α) (n : Nat) (v : α) : sdel (sins n v m) n = sdel m n := by
  induction m with
  | nil => simp [sins, sdel]
  | cons p m ih =>
    obtain ⟨i, w⟩ := p
    by_cases hlt : n < i
    · simp [sins, sdel, hlt]
    · simp [sins, sdel, hlt, ih]

@[simp] theorem sset_sset [DecidableEq α] (d : α) (m : Sparse α) (n : Nat) (v w : α) :
    sset d (sset d m n v) n w = sset d m n w := by
  unfold sset
  by_cases h : v = d
  · simp [h, sdel_sdel]
  · simp [h, sdel_sins, sdel_sdel]

/-! ## The canonical form -/

theorem swfFrom_mono [DecidableEq α] (d : α) (m : Sparse α) {lo hi : Nat} (h : lo ≤ hi) (hm : swfFrom d hi m = true) :
    swfFrom d lo m = true := by
  cases m with
  | nil => rfl
  | cons p m =>
    obtain ⟨k, v⟩ := p
    simp only [swfFrom, Bool.and_eq_true, decide_eq_true_eq] at hm ⊢
    exact ⟨⟨by omega, hm.1.2⟩, hm.2⟩

theorem swfFrom_sdel [DecidableEq α] (d : α) (n : Nat) (m : Sparse α) :
    ∀ lo, swfFrom d lo m = true → swfFrom d lo (sdel m n) = true := by
  induction m with
  | nil => intro lo h; rfl
  | cons p m ih =>
    obtain ⟨k, v⟩ := p
    intro lo h
    simp only [swfFrom, Bool.and_eq_true, decide_eq_true_eq] at h
    simp only [sdel]
    by_cases hk : k = n
    · rw [if_pos hk]; exact ih lo (swfFrom_mono d m (by omega) h.2)
    · rw [if_neg hk]
      simp only [swfFrom, Bool.and_eq_true, decide_eq_true_eq]
      exact ⟨h.1, ih _ h.2⟩

theorem swfFrom_sins [DecidableEq α] (d : α) (n : Nat) (v : α) (hv : v ≠ d) (m : Sparse α) :
    ∀ lo, lo ≤ n → swfFrom d lo m = true → (∀ p ∈ m, p.1 ≠ n) → swfFrom d lo (sins n v m) = true := by
  induction m with
  | nil => intro lo h _ _; simp [sins, swfFrom, h, hv]
  | cons p m ih =>
    obtain ⟨k, w⟩ := p
    intro lo hlo h hne
    have hk : k ≠ n := hne (k, w) (by simp)
    simp only [swfFrom, Bool.and_eq_true, decide_eq_true_eq] at h
    simp only [sins]
    by_cases hlt : n < k
    · rw [if_pos hlt]
      simp only [swfFrom, Bool.and_eq_true, decide_eq_true_eq]
      refine ⟨⟨hlo, by simpa using hv⟩, ⟨by omega, h.1.2⟩, h.2⟩
    · rw [if_neg hlt]
      simp only [swfFrom, Bool.and_eq_true, decide_eq_true_eq]
      exact ⟨h.1, ih (k + 1) (by omega) h.2 fun q hq => hne q (by simp [hq])⟩

/-- A write keeps the canonical form. -/
theorem swf_sset [DecidableEq α] (d : α) (m : Sparse α) (n : Nat) (v : α) (h : swf d m = true) : swf d (sset d m n v) = true := by
  unfold sset
  by_cases hv : v = d
  · rw [if_pos hv]; exact swfFrom_sdel d n m 0 h
  · rw [if_neg hv]; exact swfFrom_sins d n v hv _ 0 (Nat.zero_le n) (swfFrom_sdel d n m 0 h) (sdel_keys m n)

theorem swf_smod [DecidableEq α] (d : α) (m : Sparse α) (n : Nat) (f : α → α) (h : swf d m = true) :
    swf d (smod d m n f) = true := swf_sset d m n _ h

theorem swfFrom_sclear [DecidableEq α] (d : α) (a n : Nat) (m : Sparse α) :
    ∀ lo, swfFrom d lo m = true → swfFrom d lo (sclear m a n) = true := by
  induction m with
  | nil => intro lo h; rfl
  | cons p m ih =>
    obtain ⟨k, v⟩ := p
    intro lo h
    simp only [swfFrom, Bool.and_eq_true, decide_eq_true_eq] at h
    simp only [sclear]
    by_cases hk : a ≤ k ∧ k < a + n
    · rw [if_pos hk]; exact ih lo (swfFrom_mono d m (by omega) h.2)
    · rw [if_neg hk]
      simp only [swfFrom, Bool.and_eq_true, decide_eq_true_eq]
      exact ⟨h.1, ih _ h.2⟩

theorem swf_sclear [DecidableEq α] (d : α) (m : Sparse α) (a n : Nat) (h : swf d m = true) : swf d (sclear m a n) = true :=
  swfFrom_sclear d a n m 0 h

theorem sget_sclear (d : α) (m : Sparse α) (a n k : Nat) :
    sget d (sclear m a n) k = if a ≤ k ∧ k < a + n then d else sget d m k := by
  induction m with
  | nil => simp [sclear]
  | cons p m ih =>
    obtain ⟨i, v⟩ := p
    simp only [sclear]
    by_cases hi : a ≤ i ∧ i < a + n
    · rw [if_pos hi, ih, sget_cons]
      by_cases hk : i = k
      · subst hk; simp [hi]
      · simp [hk]
    · rw [if_neg hi, sget_cons, sget_cons, ih]
      by_cases hk : i = k
      · subst hk; simp [hi]
      · simp [hk]

/-! ## Bytes of a memory -/

/-- A byte list written keeps the canonical form. -/
theorem swf_writeBytes (bs : List Byte) : ∀ (m : Sparse Byte) (a : Nat), swf 0 m = true → swf 0 (writeBytes m a bs) = true := by
  induction bs with
  | nil => intro m a h; exact h
  | cons b bs ih => intro m a h; exact ih _ _ (swf_sset 0 m a b h)

/-- What an address reads as after a byte list has been written. -/
theorem sget_writeBytes (bs : List Byte) : ∀ (m : Sparse Byte) (a k : Nat),
    sget 0 (writeBytes m a bs) k = if a ≤ k ∧ k < a + bs.length then bs.getD (k - a) 0 else sget 0 m k := by
  induction bs with
  | nil =>
    intro m a k
    rw [if_neg (fun h => by have h2 := h.2; rw [List.length_nil] at h2; omega)]
    rfl
  | cons b bs ih =>
    intro m a k
    rw [writeBytes, ih, sget_sset]
    by_cases h : a + 1 ≤ k ∧ k < a + 1 + bs.length
    · rw [if_pos h, if_pos (by simp; omega)]
      obtain ⟨j, rfl⟩ : ∃ j, k = a + 1 + j := ⟨k - (a + 1), by omega⟩
      have h1 : a + 1 + j - (a + 1) = j := by omega
      have h2 : a + 1 + j - a = j + 1 := by omega
      rw [h1, h2]; simp
    · rw [if_neg h]
      by_cases hk : k = a
      · subst hk; simp
      · rw [if_neg hk, if_neg (by simp; omega)]

@[simp] theorem readBytes_length (m : Sparse Byte) (n : Nat) : ∀ a, (readBytes m a n).length = n := by
  induction n with
  | zero => intro a; rfl
  | succ n ih => intro a; simp [readBytes, ih]

/-- The i-th byte read from address a. -/
theorem readBytes_getD (m : Sparse Byte) (n : Nat) : ∀ a i, i < n → (readBytes m a n).getD i 0 = sget 0 m (a + i) := by
  induction n with
  | zero => intro a i h; omega
  | succ n ih =>
    intro a i h
    cases i with
    | zero => simp [readBytes]
    | succ i =>
      have := ih (a + 1) i (by omega)
      simp only [readBytes, List.getD_cons_succ, this]
      congr 1; omega

end Sys2Proof.Machine
end

