-- ==== Sys2Proof/Laws/State.lean ====
section
/-! SUPPORT. One lemma for each field and each update of the parts of the state, so that no proof unfolds a record update. -/
namespace Sys2Proof.Machine

/-! ## Threads -/

@[simp] theorem th_setTh (c : Core) (t : Nat) (x : Thread) (v : Nat) : (c.setTh t x).th v = if v = t then x else c.th v := by
  simp [Core.th, Core.setTh, sget_sset]
@[simp] theorem th_modTh (c : Core) (t : Nat) (f : Thread → Thread) (v : Nat) :
    (c.modTh t f).th v = if v = t then f (c.th t) else c.th v := by simp [Core.modTh]
@[simp] theorem setTh_t (c : Core) (t : Nat) (x : Thread) : (c.setTh t x).t = c.t := rfl
@[simp] theorem modTh_t (c : Core) (t : Nat) (f : Thread → Thread) : (c.modTh t f).t = c.t := rfl
@[simp] theorem setTh_f (c : Core) (t : Nat) (x : Thread) : (c.setTh t x).f = { c.f with thr := sset {} c.f.thr t x } := rfl
@[simp] theorem bump_f (c : Core) (i n : Nat) : (c.bump i n).f = c.f := rfl
@[simp] theorem bump_th (c : Core) (i n v : Nat) : (c.bump i n).th v = c.th v := rfl
@[simp] theorem notice_f (c : Core) (n : Notice) : (c.notice n).f = c.f := rfl
@[simp] theorem notice_th (c : Core) (n : Notice) (v : Nat) : (c.notice n).th v = c.th v := rfl

/-! ## Registers -/

@[simp] theorem rg_zero (th : Thread) : th.rg 0 = 0 := rfl
/-- G0 reads as zero and discards writes; another register reads as it was last written. -/
theorem rg_wg (th : Thread) (i j : BitVec 5) (x : Word) :
    (th.wg i x).rg j = if j = 0 then 0 else if j = i then x else th.rg j := by
  unfold Thread.rg Thread.wg
  by_cases hj : j = 0
  · simp [hj]
  · by_cases hi : i = 0
    · subst hi; simp only [if_true]; by_cases h : j = 0 <;> simp_all
    · simp only [hj, hi, if_false, sget_sset]
      by_cases h : j = i
      · simp [h]
      · have : j.toNat ≠ i.toNat := fun e => h (BitVec.eq_of_toNat_eq e)
        simp [h, this]
theorem rv_wv (th : Thread) (i j : BitVec 5) (x : BitVec 512) : (th.wv i x).rv j = if j = i then x else th.rv j := by
  unfold Thread.rv Thread.wv
  rw [sget_sset]
  by_cases h : j = i
  · simp [h]
  · have : j.toNat ≠ i.toNat := fun e => h (BitVec.eq_of_toNat_eq e)
    simp [h, this]
theorem rc_wc (th : Thread) (i j : BitVec 4) (x : Cap) : (th.wc i x).rc j = if j = i then x else th.rc j := by
  unfold Thread.rc Thread.wc
  rw [sget_sset]
  by_cases h : j = i
  · simp [h]
  · have : j.toNat ≠ i.toNat := fun e => h (BitVec.eq_of_toNat_eq e)
    simp [h, this]
theorem rag_wag (th : Thread) (i j : BitVec 2) (x : AGen) : (th.wag i x).rag j = if j = i then x else th.rag j := by
  unfold Thread.rag Thread.wag
  rw [sget_sset]
  by_cases h : j = i
  · simp [h]
  · have : j.toNat ≠ i.toNat := fun e => h (BitVec.eq_of_toNat_eq e)
    simp [h, this]

/-! ## The tables of a core -/

@[simp] theorem chOut_setOut (c : Core) (i : Nat) (x : ChOut) (v : Nat) : (c.setOut i x).chOut v = if v = i then x else c.chOut v := by
  simp [Core.chOut, Core.setOut, sget_sset]
@[simp] theorem chIn_setIn (c : Core) (i : Nat) (x : ChIn) (v : Nat) : (c.setIn i x).chIn v = if v = i then x else c.chIn v := by
  simp [Core.chIn, Core.setIn, sget_sset]
@[simp] theorem k_setK (c : Core) (i : Nat) (x : KCnt) (v : Nat) : (c.setK i x).k v = if v = i then x else c.k v := by
  simp [Core.k, Core.setK, sget_sset]
@[simp] theorem ocred_setOcred (c : Core) (i : Nat) (x : OCred) (v : Nat) : (c.setOcred i x).ocred v = if v = i then x else c.ocred v := by
  simp [Core.ocred, Core.setOcred, sget_sset]
@[simp] theorem iwin_setIwin (c : Core) (i : Nat) (x : IWin) (v : Nat) : (c.setIwin i x).iwin v = if v = i then x else c.iwin v := by
  simp [Core.iwin, Core.setIwin, sget_sset]
@[simp] theorem tile_setTile (c : Core) (i : Nat) (x : Tile) (v : Nat) : (c.setTile i x).tile v = if v = i then x else c.tile v := by
  simp [Core.tile, Core.setTile, Core.modMx, sget_sset]
@[simp] theorem acc_setAcc (c : Core) (i : Nat) (x : Acc) (v : Nat) : (c.setAcc i x).acc v = if v = i then x else c.acc v := by
  simp [Core.acc, Core.setAcc, Core.modMx, sget_sset]
@[simp] theorem dl_setDl (c : Core) (i : Nat) (x : DlEntry) (v : Nat) : (c.setDl i x).dl v = if v = i then x else c.dl v := by
  simp [Core.dl, Core.setDl, sget_sset]
@[simp] theorem tq_setTq (c : Core) (i : Nat) (x : TQueue) (v : Nat) : (c.setTq i x).tq v = if v = i then x else c.tq v := by
  simp [Core.tq, Core.setTq, sget_sset]
@[simp] theorem tport_setTport (c : Core) (i : Nat) (x : TPort) (v : Nat) : (c.setTport i x).tport v = if v = i then x else c.tport v := by
  simp [Core.tport, Core.setTport, sget_sset]
@[simp] theorem str_setStr (c : Core) (i : Nat) (x : Stream) (v : Nat) : (c.setStr i x).str v = if v = i then x else c.str v := by
  simp [Core.str, Core.setStr, sget_sset]
@[simp] theorem modMx_t (c : Core) (g : Matrix → Matrix) : (c.modMx g).t = c.t := rfl
@[simp] theorem modMx_mx (c : Core) (g : Matrix → Matrix) : (c.modMx g).f.mx = g c.f.mx := rfl
@[simp] theorem modMx_th (c : Core) (g : Matrix → Matrix) (v : Nat) : (c.modMx g).th v = c.th v := rfl
@[simp] theorem modSt_t (c : Core) (f : Stand → Stand) : (c.modSt f).t = c.t := rfl
@[simp] theorem modSt_st (c : Core) (f : Stand → Stand) : (c.modSt f).f.st = f c.f.st := rfl
@[simp] theorem modSt_th (c : Core) (f : Stand → Stand) (v : Nat) : (c.modSt f).th v = c.th v := rfl
@[simp] theorem setPool_t (c : Core) (p : List PoolMsg) : (c.setPool p).t = c.t := rfl
@[simp] theorem setPool_pool (c : Core) (p : List PoolMsg) : (c.setPool p).f.ch.pool = p := rfl
@[simp] theorem modRouter_f (c : Core) (f : Router → Router) : (c.modRouter f).f = c.f := rfl
@[simp] theorem modRouter_router (c : Core) (f : Router → Router) : (c.modRouter f).t.router = f c.t.router := rfl

/-! ## The module's parts -/

@[simp] theorem core_setCore (s : State) (w : Nat) (c : Core) (v : Nat) : (s.setCore w c).core v = if v = w then c else s.core v := by
  simp [State.core, State.setCore, sget_sset]
@[simp] theorem core_modCore (s : State) (w : Nat) (f : Core → Core) (v : Nat) :
    (s.modCore w f).core v = if v = w then f (s.core w) else s.core v := by simp [State.modCore]
@[simp] theorem setCore_setCore (s : State) (w : Nat) (c d : Core) : (s.setCore w c).setCore w d = s.setCore w d := by
  simp [State.setCore]
@[simp] theorem die_modDie (s : State) (d : Nat) (f : Die → Die) (v : Nat) :
    (s.modDie d f).die v = if v = d then f (s.die d) else s.die v := by simp [State.die, State.modDie, sget_smod]
@[simp] theorem grove_modGrove (s : State) (g : Nat) (f : Grove → Grove) (v : Nat) :
    (s.modGrove g f).grove v = if v = g then f (s.grove g) else s.grove v := by simp [State.grove, State.modGrove, sget_smod]
@[simp] theorem port_modPort (s : State) (m : Nat) (f : Port → Port) (v : Nat) :
    (s.modPort m f).port v = if v = m then f (s.port m) else s.port v := by simp [State.port, State.modPort, sget_smod]
@[simp] theorem engine_modEngine (s : State) (e : Nat) (f : Engine → Engine) (v : Nat) :
    (s.modEngine e f).engine v = if v = e then f (s.engine e) else s.engine v := by
  simp [State.engine, State.modEngine, sget_smod]
@[simp] theorem eth_modEth (s : State) (e : Nat) (f : Eth → Eth) (v : Nat) :
    (s.modEth e f).eth v = if v = e then f (s.eth e) else s.eth v := by simp [State.eth, State.modEth, sget_smod]
@[simp] theorem pair_modPair (s : State) (q : Nat) (f : Pair → Pair) (v : Nat) :
    (s.modPair q f).pair v = if v = q then f (s.pair q) else s.pair v := by simp [State.pair, State.modPair, sget_smod]
@[simp] theorem stand_modStand (s : State) (n : Nat) (f : StandRec → StandRec) (v : Nat) :
    (s.modStand n f).stand v = if v = n then f (s.stand n) else s.stand v := by simp [State.stand, State.modStand, sget_smod]
@[simp] theorem lead_modLead (s : State) (f : Lead → Lead) : (s.modLead f).lead = f s.lead := rfl
@[simp] theorem core_modLead (s : State) (f : Lead → Lead) (w : Nat) : (s.modLead f).core w = s.core w := rfl
@[simp] theorem grove_modLead (s : State) (f : Lead → Lead) (g : Nat) : (s.modLead f).grove g = s.grove g := rfl
@[simp] theorem core_modGrove (s : State) (g : Nat) (f : Grove → Grove) (w : Nat) : (s.modGrove g f).core w = s.core w := rfl
@[simp] theorem core_modDie (s : State) (d : Nat) (f : Die → Die) (w : Nat) : (s.modDie d f).core w = s.core w := rfl
@[simp] theorem core_modPort (s : State) (m : Nat) (f : Port → Port) (w : Nat) : (s.modPort m f).core w = s.core w := rfl
@[simp] theorem core_modPair (s : State) (q : Nat) (f : Pair → Pair) (w : Nat) : (s.modPair q f).core w = s.core w := rfl
@[simp] theorem core_modEngine (s : State) (e : Nat) (f : Engine → Engine) (w : Nat) : (s.modEngine e f).core w = s.core w := rfl
@[simp] theorem core_modEth (s : State) (e : Nat) (f : Eth → Eth) (w : Nat) : (s.modEth e f).core w = s.core w := rfl

end Sys2Proof.Machine
end

