-- ==== Sys2Proof/Laws/Issue.lean ====
section
/-! SUPPORT. What an instruction's issue does, said once: `issueInstr` on a thread that is ready, by the outcome of the operation. -/
namespace Sys2Proof.Machine

/-! ## Counting and tracing an issue -/

/-- What counting and tracing an issue leaves. -/
structure Counted (x y : Core) (t : Nat) : Prop where
  field : y.f = { x.f with dbg := { x.f.dbg with trace := y.f.dbg.trace } }
  trunk : y.t = { x.t with cnt := y.t.cnt, traceNext := y.t.traceNext, traceCnt := y.t.traceCnt, traceFull := y.t.traceFull,
                           notices := y.t.notices }
  notices : x.t.ringEn = false → y.t.notices = x.t.notices
  counts : ∀ i, sget 0 y.t.cnt i = sget 0 x.t.cnt i + if i = cntPerf t then 1 else 0

theorem traceAdd_field (c : Core) (t : Nat) (pc : BitVec 17) (k : Nat) :
    (c.traceAdd t pc k).f = { c.f with dbg := { c.f.dbg with trace := (c.traceAdd t pc k).f.dbg.trace } } := by
  unfold Core.traceAdd
  split
  · rfl
  · split
    · rfl
    · dsimp only
      split <;> rfl

theorem traceAdd_trunk (c : Core) (t : Nat) (pc : BitVec 17) (k : Nat) :
    (c.traceAdd t pc k).t = { c.t with
      traceNext := (c.traceAdd t pc k).t.traceNext, traceCnt := (c.traceAdd t pc k).t.traceCnt,
      traceFull := (c.traceAdd t pc k).t.traceFull, notices := (c.traceAdd t pc k).t.notices } := by
  unfold Core.traceAdd
  split
  · rfl
  · split
    · rfl
    · dsimp only
      split <;> rfl

theorem traceAdd_notices (c : Core) (t : Nat) (pc : BitVec 17) (k : Nat) (h : c.t.ringEn = false) :
    (c.traceAdd t pc k).t.notices = c.t.notices := by
  unfold Core.traceAdd
  split
  · rfl
  · split
    · rfl
    · dsimp only
      split
      · rename_i hh; simp [h] at hh
      · rfl

theorem traceIssue_cases (c : Core) (t : Nat) (pc : BitVec 17) (k : Nat) :
    c.traceIssue t pc k = c ∨ ∃ j, c.traceIssue t pc k = c.traceAdd t pc j := by
  unfold Core.traceIssue
  split
  · split
    · exact .inl rfl
    · exact .inr ⟨0, rfl⟩
  · split
    · exact .inl rfl
    · exact .inr ⟨k, rfl⟩
  · exact .inl rfl

theorem counted_countIssue (x : Core) (t : Nat) (pc : BitVec 17) (k : Nat) : Counted x (x.countIssue t pc k) t := by
  have hb : Counted x (x.bump (cntPerf t) 1) t :=
    ⟨rfl, rfl, fun _ => rfl, fun i => by
      simp only [Core.bump, sget_smod]
      by_cases h : i = cntPerf t
      · simp [h]
      · simp [h]⟩
  unfold Core.countIssue
  rcases traceIssue_cases (x.bump (cntPerf t) 1) t pc k with h | ⟨j, h⟩
  · rw [h]; exact hb
  · rw [h]
    refine ⟨?_, ?_, ?_, ?_⟩
    · exact traceAdd_field ..
    · have := traceAdd_trunk (x.bump (cntPerf t) 1) t pc j
      rw [this]; rfl
    · intro hr; exact traceAdd_notices _ _ _ _ hr
    · intro i
      have := congrArg Trunk.cnt (traceAdd_trunk (x.bump (cntPerf t) 1) t pc j)
      simp only at this
      rw [this]; exact hb.counts i

theorem Counted.th {x y : Core} {t : Nat} (h : Counted x y t) (v : Nat) : y.th v = x.th v := by
  unfold Core.th; rw [h.field]

/-! ## A stepping thread's stop -/

theorem stopRecord_spec (c : Core) (th : Thread) (t reason index : Nat) (notify : Bool) (addr : Word) :
    (c.stopRecord th t reason index notify addr).f = c.f
    ∧ (c.stopRecord th t reason index notify addr).t
      = { c.t with notices := (c.stopRecord th t reason index notify addr).t.notices }
    ∧ (c.t.ringEn = false → (c.stopRecord th t reason index notify addr).t.notices = c.t.notices) := by
  unfold Core.stopRecord
  split
  · rename_i h
    exact ⟨rfl, rfl, fun hr => by simp [hr] at h⟩
  · exact ⟨rfl, rfl, fun _ => rfl⟩

/-- What the end of a step leaves (R485). -/
structure StepEnded (c z : Core) (t : Nat) (was : Bool) : Prop where
  thread : z.th t = (c.th t).stepEnd was
  threads : ∀ v, v ≠ t → z.th v = c.th v
  field : z.f = { c.f with thr := z.f.thr }
  trunk : z.t = { c.t with notices := z.t.notices }
  notices : c.t.ringEn = false → z.t.notices = c.t.notices

theorem endStep_spec (c : Core) (t : Nat) (was : Bool) : StepEnded c (c.endStep t was) t was := by
  cases was with
  | false => exact ⟨rfl, fun _ _ => rfl, rfl, rfl, fun _ => rfl⟩
  | true =>
    have h2 := stopRecord_spec (c.setTh t ((c.th t).stopped 4)) (c.th t) t 4 0 false 0
    have h3 : c.endStep t true = ((c.setTh t ((c.th t).stopped 4)).stopRecord (c.th t) t 4 0 false 0) := by
      simp [Core.endStep, Core.markStop, Core.stopTrace, Core.stopNotify]
    rw [h3]
    generalize ((c.setTh t ((c.th t).stopped 4)).stopRecord (c.th t) t 4 0 false 0) = z at h2
    have hth : ∀ v, z.th v = (c.setTh t ((c.th t).stopped 4)).th v := fun v => by
      show sget {} z.f.thr v = sget {} (c.setTh t ((c.th t).stopped 4)).f.thr v
      rw [h2.1]
    refine ⟨?_, ?_, ?_, ?_, ?_⟩
    · rw [hth]; simp [Thread.stepEnd, Thread.stopped]
    · intro v hv; rw [hth]; simp [hv]
    · rw [h2.1]; rfl
    · rw [h2.2.1]; rfl
    · intro hr
      rw [h2.2.2 (by simpa using hr)]; rfl

/-! ## Issue -/

/-- The core after an instruction has issued: counted, past the instruction or where it put the PC, its step ended. -/
def Core.settle (y : Core) (t : Nat) (pc : BitVec 17) (kind : Nat) (adv was : Bool) : Core :=
  (if adv then (y.countIssue t pc kind).modTh t Thread.advance else y.countIssue t pc kind).endStep t was

theorem settle_reqs (y : Core) (t : Nat) (pc : BitVec 17) (kind : Nat) (adv was : Bool) :
    (y.settle t pc kind adv was).t.reqs = y.t.reqs := by
  have h1 := counted_countIssue y t pc kind
  unfold Core.settle
  rw [(endStep_spec _ t was).trunk]
  dsimp only
  split
  · rw [modTh_t, h1.trunk]
  · rw [h1.trunk]

/-- What setting a core leaves of the module. -/
theorem onlyCore_setCore (s : State) (c : Nat) (x : Core) : OnlyCore s (s.setCore c x) c :=
  ⟨rfl, fun w h => by simp [h]⟩

theorem issued_setCore (s : State) (c : Nat) (t : Fin 4) (y : Core) (pc : BitVec 17) (kind : Nat) (adv : Bool) :
    Issued s (s.setCore c (y.settle t.val pc kind adv ((s.core c).th t.val).stepping)) c t adv y := by
  have hc : (s.setCore c (y.settle t.val pc kind adv ((s.core c).th t.val).stepping)).core c
      = y.settle t.val pc kind adv ((s.core c).th t.val).stepping := by simp
  have h1 := counted_countIssue y t.val pc kind
  have h2 := endStep_spec (if adv then (y.countIssue t.val pc kind).modTh t.val Thread.advance else y.countIssue t.val pc kind) t.val
    ((s.core c).th t.val).stepping
  refine ⟨onlyCore_setCore s c _, ?_, ?_, ?_, ?_, ?_, ?_⟩ <;> rw [hc]
  · unfold Core.settle
    rw [h2.thread]
    cases adv with
    | true => simp [h1.th]
    | false => simp [h1.th]
  · intro v hv
    unfold Core.settle
    rw [h2.threads v hv]
    cases adv with
    | true => simp [h1.th, hv]
    | false => simp [h1.th]
  · unfold Core.settle
    rw [h2.field]
    cases adv with
    | true =>
      simp only [if_true, Core.modTh, setTh_f]
      rw [h1.field]
    | false =>
      simp only [Bool.false_eq_true, if_false]
      rw [h1.field]
  · unfold Core.settle
    rw [h2.trunk]
    cases adv with
    | true => simp only [if_true, modTh_t]; rw [h1.trunk]
    | false => simp only [Bool.false_eq_true, if_false]; rw [h1.trunk]
  · intro hr
    unfold Core.settle
    have he : (y.countIssue t.val pc kind).t.ringEn = false := by rw [h1.trunk]; exact hr
    cases adv with
    | true =>
      rw [h2.notices (by simpa using he)]
      simp only [if_true, modTh_t]
      exact h1.notices hr
    | false =>
      rw [h2.notices (by simpa using he)]
      simp only [Bool.false_eq_true, if_false]
      exact h1.notices hr
  · intro i
    unfold Core.settle
    rw [h2.trunk]
    cases adv with
    | true => simp only [if_true, modTh_t]; exact h1.counts i
    | false => simp only [Bool.false_eq_true, if_false]; exact h1.counts i

theorem Core.reqs_nil (x : Core) (h : x.t.reqs = []) : { x with t := { x.t with reqs := [] } } = x := by
  obtain ⟨f, t⟩ := x
  cases t
  simp_all

/-- An operation of a core that asks nothing of the module. -/
theorem onCore_of_reqs (s : State) (w : Nat) (f : Core → Core) (h : (f (s.core w)).t.reqs = []) :
    s.onCore w f = s.setCore w (f (s.core w)) := by
  unfold State.onCore State.drain
  simp only [core_modCore, if_true, h, List.foldl_nil]
  simp only [State.modCore, core_setCore, if_true, setCore_setCore]
  rw [Core.reqs_nil _ h]

/-- The parts of `mayIssue`. -/
theorem mayIssue_iff (s : State) (c : Nat) (t : Fin 4) (op : Op) :
    s.mayIssue c t op = true ↔
      coreOk c = true ∧ s.runs c = true ∧ (s.core c).canIssue t.val = true ∧ (s.core c).breakpoint t.val = none
      ∧ (((s.core c).th t.val).prog.valid = true → ((s.core c).th t.val).prog.unit.toNat = opUnit op)
      ∧ (s.seen c t op).claimHeld t.val op = false ∧ (s.core c).t.reqs = [] := by
  unfold State.mayIssue State.atIssue
  simp only [Bool.and_eq_true, Option.isNone_iff_eq_none, Bool.or_eq_true, Bool.not_eq_true', decide_eq_true_eq,
    List.isEmpty_iff, and_assoc]
  constructor
  · rintro ⟨h1, h2, h3, h4, h7, h5, h6⟩
    exact ⟨h1, h2, h3, h4, fun h => h5.resolve_left (by simp [h]), h6, h7⟩
  · rintro ⟨h1, h2, h3, h4, h5, h6, h7⟩
    refine ⟨h1, h2, h3, h4, h7, ?_, h6⟩
    by_cases h : ((s.core c).th t.val).prog.valid = true
    · exact .inr (h5 h)
    · exact .inl (by simpa using h)

/-- The operation of an instruction row on the core that its thread's issue finds. -/
def State.ran (s : State) (c : Nat) (t : Fin 4) (k : BitVec 4) (op : Op) : Res Core :=
  opRun { s.env c with word := encodeOp k op, whole := (s.env c).whole && !((s.core c).th t.val).stepping } t.val op (s.seen c t op)

theorem tryIssue_ready (s : State) (c : Nat) (t : Fin 4) (k : BitVec 4) (op : Op) (h : s.ready c t k op = true) :
    (s.now c).tryIssue (s.env c) t.val k op =
      let was := ((s.core c).th t.val).stepping
      let pc := ((s.core c).th t.val).pc
      match s.ran c t k op with
      | .hold _ => s.now c
      | .wait y _ => y
      | .going y => (y.countIssue t.val pc 0).wentOn (s.now c) t.val
      | .ok y => y.settle t.val pc 0 true was
      | .jump y => y.settle t.val pc 1 false was
      | .ret y => y.settle t.val pc 3 false was
      | .fault y f => ((y.modTh t.val Thread.consume).raise t.val f).endStep t.val was
      | .watch y j addr => y.stopThread t.val 3 j (bitOf (sget 0 (s.core c).f.dbg.wpCtl j) 22) addr := by
  simp only [State.ready, Bool.and_eq_true] at h
  obtain ⟨⟨h0, h1⟩, h2⟩ := h
  obtain ⟨-, -, -, hb, hp, hr, -⟩ := (mayIssue_iff s c t op).1 h0
  have hp' : (((s.core c).th t.val).prog.valid && !decide (((s.core c).th t.val).prog.unit.toNat = opUnit op)) = false := by
    by_cases hv : ((s.core c).th t.val).prog.valid = true
    · simp [hp hv]
    · simp [hv]
  have hrun : runOp { s.env c with word := encodeOp k op, whole := (s.env c).whole && !((s.core c).th t.val).stepping } t.val op
      (s.seen c t op) = s.ran c t k op := by
    unfold runOp State.ran
    rw [hr]; rfl
  unfold Core.tryIssue Core.issue
  have hth : (s.now c).th t.val = (s.core c).th t.val := rfl
  have hbr : (s.now c).breakpoint t.val = (s.core c).breakpoint t.val := rfl
  have hs : (s.now c).dropRun t.val (opUnit op) = s.seen c t op := rfl
  simp only [hth, hbr, hb, h1, h2, hp', Bool.not_true, Bool.false_eq_true, if_false]
  rw [hs, hrun]
  cases s.ran c t k op <;> rfl

theorem issueInstr_mayIssue (s : State) (c : Nat) (t : Fin 4) (k : BitVec 4) (op : Op) (h : s.mayIssue c t op = true) :
    s.issueInstr c t k op = .next (s.onCore c fun x => (x.inCycle (s.die (dieOf c)).cyc).tryIssue (s.env c) t.val k op) := by
  obtain ⟨h1, h2, h3, -⟩ := (mayIssue_iff s c t op).1 h
  simp [State.issueInstr, guard, h1, h2, h3]

/-- An instruction whose operation is done: the thread goes on to the next one. -/
theorem issueInstr_ok (s : State) (c : Nat) (t : Fin 4) (k : BitVec 4) (op : Op) (y : Core)
    (h : s.ready c t k op = true) (hr : s.ran c t k op = .ok y) (hq : y.t.reqs = []) :
    ∃ u, s.issueInstr c t k op = .next u ∧ Issued s u c t true y := by
  have hm : s.mayIssue c t op = true := by
    simp only [State.ready, Bool.and_eq_true] at h; exact h.1.1
  refine ⟨_, issueInstr_mayIssue s c t k op hm, ?_⟩
  have ht := tryIssue_ready s c t k op h
  rw [hr] at ht
  simp only at ht
  unfold State.now at ht
  rw [onCore_of_reqs _ _ _ (by rw [ht, settle_reqs]; exact hq), ht]
  exact issued_setCore ..

/-- An instruction whose operation sets the PC. -/
theorem issueInstr_jump (s : State) (c : Nat) (t : Fin 4) (k : BitVec 4) (op : Op) (y : Core)
    (h : s.ready c t k op = true) (hr : s.ran c t k op = .jump y) (hq : y.t.reqs = []) :
    ∃ u, s.issueInstr c t k op = .next u ∧ Issued s u c t false y := by
  have hm : s.mayIssue c t op = true := by
    simp only [State.ready, Bool.and_eq_true] at h; exact h.1.1
  refine ⟨_, issueInstr_mayIssue s c t k op hm, ?_⟩
  have ht := tryIssue_ready s c t k op h
  rw [hr] at ht
  simp only at ht
  unfold State.now at ht
  rw [onCore_of_reqs _ _ _ (by rw [ht, settle_reqs]; exact hq), ht]
  exact issued_setCore ..

/-- RFE. -/
theorem issueInstr_ret (s : State) (c : Nat) (t : Fin 4) (k : BitVec 4) (op : Op) (y : Core)
    (h : s.ready c t k op = true) (hr : s.ran c t k op = .ret y) (hq : y.t.reqs = []) :
    ∃ u, s.issueInstr c t k op = .next u ∧ Issued s u c t false y := by
  have hm : s.mayIssue c t op = true := by
    simp only [State.ready, Bool.and_eq_true] at h; exact h.1.1
  refine ⟨_, issueInstr_mayIssue s c t k op hm, ?_⟩
  have ht := tryIssue_ready s c t k op h
  rw [hr] at ht
  simp only at ht
  unfold State.now at ht
  rw [onCore_of_reqs _ _ _ (by rw [ht, settle_reqs]; exact hq), ht]
  exact issued_setCore ..

theorem seen_reqs (s : State) (c : Nat) (t : Fin 4) (k : BitVec 4) (op : Op) (h : s.ready c t k op = true) :
    (s.seen c t op).t.reqs = [] := by
  simp only [State.ready, Bool.and_eq_true] at h
  obtain ⟨-, -, -, -, -, -, hq⟩ := (mayIssue_iff s c t op).1 h.1.1
  rw [← hq]
  unfold State.seen Core.dropRun
  split
  · split <;> rfl
  · rfl

@[simp] theorem seen_th (s : State) (c : Nat) (t : Fin 4) (op : Op) (v : Nat) : (s.seen c t op).th v = (s.core c).th v := by
  unfold State.seen Core.dropRun
  split
  · split <;> rfl
  · rfl

/-- An instruction that only changes its thread's registers. -/
theorem issueInstr_regs (s : State) (c : Nat) (t : Fin 4) (k : BitVec 4) (op : Op) (f : Thread → Thread)
    (h : s.ready c t k op = true) (hr : s.ran c t k op = (s.seen c t op).thOp t.val f) :
    ∃ u, s.issueInstr c t k op = .next u ∧ Issued s u c t true ((s.seen c t op).modTh t.val f) :=
  issueInstr_ok s c t k op _ h hr (by rw [modTh_t]; exact seen_reqs s c t k op h)

end Sys2Proof.Machine
end

