-- ==== Sys2Proof/Tests/Slice0.lean ====
section
/-! SUPPORT. The model's own tests: a word or a term for each encoding check; words written out bit by bit from the encoding tables; and,
for each statement, a state and operands that meet the premises of each of its clauses. -/
namespace Sys2Proof.Tests
open Sys2Proof Sys2Proof.Machine
set_option Elab.async false

/-! ## Ill-formed terms, which the encoding check refuses (R57) -/

theorem test_reserved_condition : encOk 15 (.movi 1 0) = false := by decide
theorem test_subimm_is_none : (Op.aluImm .sub 1 2 false 3).wf = false := by decide
theorem test_bit_field_bounds : (Op.bfi 1 2 31 1).wf = true ∧ (Op.bfi 1 2 31 2).wf = false ∧ (Op.bfx 1 2 0 0 false).wf = false
    ∧ (Op.bfx 1 2 0 32 true).wf = true ∧ (Op.bfx 1 2 0 33 true).wf = false := by decide
theorem test_load_sizes : (Op.ldr 1 2 3 5 0).wf = true ∧ (Op.ldr 1 2 3 6 0).wf = false ∧ (Op.lda 1 0 false 7).wf = false := by decide
theorem test_store_sizes : (Op.str 1 2 3 1 0).wf = false ∧ (Op.sta 1 0 false 3).wf = false ∧ (Op.str 1 2 3 5 0).wf = true := by decide
theorem test_generator_fields : (Op.agset 0 1 5).wf = false ∧ (Op.agget 0 1 4).wf = true := by decide
theorem test_rdsr_codes : (Op.rdsr 1 5).wf = false ∧ (Op.rdsr 1 4).wf = true := by decide
theorem test_vector_types : (Op.vop .add 1 2 3 5).wf = false ∧ (Op.vop .adds 1 2 3 4).wf = false ∧ (Op.vop .shr 1 2 3 4).wf = false
    ∧ (Op.vop .abs 1 2 3 0).wf = false ∧ (Op.vred .sum 1 2 7).wf = false := by decide
theorem test_compare_codes : (Op.vcmp 1 2 3 6 false 0).wf = false ∧ (Op.vcmp 1 2 3 5 false 5).wf = false := by decide
theorem test_lanes : (Op.vext 1 2 63 0).wf = true ∧ (Op.vext 1 2 32 2).wf = false ∧ (Op.vins 1 2 16 4).wf = false
    ∧ (Op.vbcast 1 2 0 5).wf = false := by decide
theorem test_vcvt_pairs : (Op.vcvt 1 2 9 9 0 0 false).wf = false ∧ (Op.vcvt 1 2 9 3 0 5 false).wf = false
    ∧ (Op.vcvt 1 2 9 10 1 0 false).wf = false ∧ (Op.vcvt 1 2 1 0 1 0 false).wf = true := by decide
theorem test_cnarrow_even : (Op.cnarrow 1 2 3 4).wf = false := by decide
theorem test_save_fields : (Op.ssrd 10 1 false).wf = false ∧ (Op.sswr 9 1 false).wf = true ∧ (Op.scwr 3 1 false).wf = false := by decide
theorem test_tile_configurations : (Op.tcfg 7 1 1 4).wf = false ∧ (Op.tcfg 7 1 0 4).wf = true ∧ (Op.tcfg 11 4 0 0).wf = true
    ∧ (Op.tcfg 12 4 0 0).wf = false ∧ (Op.tcfg 8 4 1 0).wf = false := by decide
theorem test_mstat_codes : (Op.mstat 1 2).wf = false ∧ (Op.mstat 1 3).wf = false := by decide
theorem test_dense_mma_tm : (Op.mma 0 1 2 true 0 3).wf = false := by decide
theorem test_stand_codes : (Op.ctxsw 0 3).wf = false ∧ (Op.stctl 1 3).wf = false ∧ (Op.tstat 1 13).wf = false := by decide
theorem test_lengths : (Op.send 1 2 0 false).wf = false ∧ (Op.send 1 2 9 false).wf = false ∧ (Op.tsend 1 2 8 false).wf = true := by decide
theorem test_mput_index : (Op.mput true 1 1).wf = false := by decide
theorem test_cwait_pair : (Op.cwait 1 2 3 true).wf = false ∧ (Op.cwait 1 2 3 false).wf = true := by decide
theorem test_sopen_group : (Op.sopen 0 1 2 6).wf = false := by decide
theorem test_sstat_codes : (Op.sstat 0 1 3).wf = false := by decide

/-- ADD, LDR and RFE spelt from Tables 03.2, 03.9 and 05.10: COND, OP, then the fields. -/
theorem test_words_decode : decodeOp (0b0000_000000_00011_00001_00010_000000_1) = some (0, .alu .add 3 1 2 true)
    ∧ decodeOp (0b0001_010000_00011_0010_00001_100_11111) = some (1, .ldr 3 2 1 4 (-1))
    ∧ decodeOp (0b0000_011100_001_00000000_1110_0000000) = some (0, .rfe 14) := by decide

/-! ## Small states -/

/-- Core 0 in a grove that is on, on a die that is up, with a core field and a trunk part. -/
def on (f : Field) (t : Trunk := {}) : State :=
  { State.reset with cores := [(0, { f := f, t := t })], groves := [(0, { on := true })], dies := [(0, { phase := 2 })] }
/-- Core 0 with its four threads enabled, thread 1 as given and the rest of the field as f makes it. -/
def one (th : Thread := {}) (f : Field → Field := id) : State := on (f { thr := [(1, th)], tc := { en := 15 } })
/-- Core 0 with thread 0 as given. -/
def zero (th : Thread := {}) (f : Field → Field := id) : State := on (f { thr := [(0, th)], tc := { en := 15 } })
/-- A capability over the whole scratchpad. -/
def pad : Cap := mkCap 1 0xFFF 0 0x20000 0
/-- A thread with that capability in C2 and C15, generators 0 and 1 bound to it at 0x40 and 0x80, and G1, G2 set. -/
def loaded1 : Thread :=
  { c := [(2, pad), (15, pad)], g := [(1, 0x40), (2, 3)]
    ag := [(0, { base := 0x40, step := 4, cap := some 2 }), (1, { base := 0x80, step := 4, cap := some 2 })] }

/-! ## Premises of the statements: instructions -/

theorem witness_EveryInstructionRowIsChecked :
    rowOp (.movi 0 1 1 2 3) = some (0, 1, 1, .movi 2 3) ∧ one.atIssue 0 1 = true ∧ encOk 1 (.movi 2 3) = true
    ∧ condHolds 1 ((one.core 0).th 1).flags = false
    ∧ rowOp (.movi 0 1 15 2 3) = some (0, 1, 15, .movi 2 3) ∧ encOk 15 (.movi 2 3) = false
    ∧ (let s := one { prog := { unit := 3, valid := true } }
       s.atIssue 0 1 = true ∧ condHolds 0 ((s.core 0).th 1).flags = true ∧ ((s.core 0).th 1).prog.valid = true
        ∧ ((s.core 0).th 1).prog.unit.toNat ≠ opUnit (.movi 2 3)) := by decide +kernel
theorem witness_AluRows : (one loaded1).ready 0 1 0 (.alu .sbc 0 1 2 true) = true ∧ (one loaded1).ready 0 1 0 (.aluImm .xor 3 1 true (-1)) = true
    ∧ (one loaded1).ready 0 1 0 (.cmp 1 2) = true ∧ (one loaded1).ready 0 1 0 (.cmpi 1 5) = true
    ∧ (one loaded1).ready 0 1 0 (.shiftImm 2 3 1 31 true) = true := by decide +kernel
theorem witness_MoveAndBitFieldRows : one.ready 0 1 0 (.movi 3 0x8000) = true ∧ one.ready 0 1 0 (.movhi 3 1) = true
    ∧ one.ready 0 1 0 (.bfi 3 1 0 32) = true ∧ one.ready 0 1 0 (.bfx 3 1 31 1 true) = true ∧ (Op.bfx 3 1 31 1 true).wf = true
    ∧ one.ready 0 1 0 (.clz 3 1) = true ∧ one.ready 0 1 0 (.bperm 3 1 2) = true := by decide +kernel
theorem witness_LoadRows : let s := one loaded1
    s.ready 0 1 0 (.ldr 3 2 1 4 (-1)) = true ∧ regAddress pad 0x40 (-1) 4 = 0x3C ∧ spadCheck pad permRD 0x3C 4 4 = none
    ∧ (s.seen 0 1 (.ldr 3 2 1 4 (-1))).open_ 1 0x3C 4 false = true ∧ s.ready 0 1 0 (.lda 3 0 true 5) = true
    ∧ (loaded1.rag 0).illegal true = false ∧ loaded1.agCheck (loaded1.rag 0) permRD 64 16 = none
    ∧ (s.seen 0 1 (.lda 3 0 true 5)).open_ 1 (loaded1.rag 0).address.toNat 64 false = true := by decide +kernel
theorem witness_StoreRows : let s := one loaded1
    s.ready 0 1 0 (.str 3 2 1 4 15) = true ∧ regAddress pad 0x40 15 4 = 0x7C ∧ spadCheck pad permWR 0x7C 4 4 = none
    ∧ (s.seen 0 1 (.str 3 2 1 4 15)).open_ 1 0x7C 4 true = true ∧ s.ready 0 1 0 (.sta 3 0 true 5) = true
    ∧ loaded1.agCheck (loaded1.rag 0) permWR 64 16 = none
    ∧ (s.seen 0 1 (.sta 3 0 true 5)).open_ 1 (loaded1.rag 0).address.toNat 64 true = true := by decide +kernel
theorem witness_MultiplyAccumulateRows : let s := one loaded1
    s.ready 0 1 0 (.macd 3 true true 3) = true ∧ macBytes 3 = 4 ∧ s.ready 0 1 0 (.vmacd 3 false true 1) = true
    ∧ (∀ n ∈ [4, 64], ∀ g ∈ [0, 1], (loaded1.rag (BitVec.ofNat 2 g)).illegal true = false
      ∧ loaded1.agCheck (loaded1.rag (BitVec.ofNat 2 g)) permRD n (min n 16) = none
      ∧ (s.seen 0 1 (.macd 3 true true 3)).open_ 1 (loaded1.rag (BitVec.ofNat 2 g)).address.toNat n false = true) := by decide +kernel
theorem witness_GeneratorRows : let s := one { loaded1 with g := [(1, 0x1FFFF), (2, 0x20000)] }
    s.ready 0 1 0 (.agset 0 1 0) = true ∧ (fieldWritten {} 0 0x1FFFF).isSome = true ∧ fieldWritten {} 0 0x20000 = none
    ∧ (fieldWritten {} 2 0x1FFFF).isSome = true ∧ fieldWritten {} 2 0x20000 = none ∧ (fieldWritten {} 2 0xFFFE0000).isSome = true
    ∧ fieldWritten {} 2 0xFFFDFFFF = none ∧ (fieldWritten {} 3 0x20000).isSome = true ∧ fieldWritten {} 3 0 = none
    ∧ (fieldWritten {} 4 2).isSome = true ∧ fieldWritten {} 4 3 = none
    ∧ s.ready 0 1 0 (.agadd 0 1) = true ∧ (loaded1.rag 0).illegal true = false ∧ s.ready 0 1 0 (.agbind 3 2) = true
    ∧ (one { ag := [(0, { mode := 1 })] }).ready 0 1 0 (.agadd 0 1) = true := by decide +kernel
theorem witness_BranchAndSystemReadRows : let s := one { g := [(1, 0x1FFFC), (2, 2), (3, 0x20000)] }
    s.ready 0 1 0 (.b (-1)) = true ∧ s.ready 0 1 0 (.bl 1) = true ∧ s.ready 0 1 0 (.br 1 true) = true ∧ s.ready 0 1 0 (.br 2 false) = true
    ∧ s.ready 0 1 0 (.br 3 false) = true ∧ s.ready 0 1 0 .iflush = true ∧ s.ready 0 1 0 (.rdsr 4 4) = true
    ∧ s.ready 0 1 0 (.agget 0 4 2) = true := by decide +kernel
theorem witness_VectorLaneRows : one.ready 0 1 0 (.vop .adds 1 2 3 3) = true ∧ one.ready 0 1 0 (.vop .abs 1 2 0 4) = true
    ∧ one.ready 0 1 0 (.vop .sel 1 2 3 4) = true := by decide +kernel
theorem witness_CompareLaneMoveAndReductionRows : one.ready 0 1 0 (.vcmp 1 2 3 5 true 4) = true ∧ one.ready 0 1 0 (.vbcast 1 2 0 2) = true
    ∧ one.ready 0 1 0 (.vext 1 2 63 1) = true ∧ one.ready 0 1 0 (.vins 1 2 15 4) = true ∧ one.ready 0 1 0 (.vred .sum 1 2 4) = true
    ∧ one.ready 0 1 0 (.vred .max 1 2 1) = true ∧ one.ready 0 1 0 (.vred .min 1 2 0) = true := by decide +kernel
theorem witness_VcvtRow : one.ready 0 1 0 (.vcvt 1 2 9 10 0 4 true) = true ∧ one.ready 0 1 0 (.vcvt 1 2 10 9 0 0 false) = true
    ∧ one.ready 0 1 0 (.vcvt 1 2 9 5 3 0 false) = true ∧ one.ready 0 1 0 (.vcvt 1 2 5 9 3 0 false) = true
    ∧ one.ready 0 1 0 (.vcvt 1 2 1 0 1 0 false) = true := by decide +kernel

/-- A thread with a SYS capability in C3 that permits all on slots 0 to 31, an unsealed SPAD capability in C2, one sealed in slot 2 in C4. -/
def sealer : Thread :=
  { loaded1 with c := [(2, pad), (3, mkCap 9 0xFFF 0 32 0), (4, mkCap 1 0xFFF 0 64 (2 * 2048)), (15, pad)], g := [(1, 0x40), (2, 0x20), (3, 2)] }

theorem witness_CapabilityMoveRows : let s := one loaded1; let b := one loaded1 fun f => { f with spad := { tagBad := [(4, true)] } }
    s.ready 0 1 0 (.cld 5 2 1) = true ∧ spadCheck pad (permRD ||| permLDC) 0x40 16 16 = none
    ∧ (s.seen 0 1 (.cld 5 2 1)).open_ 1 0x40 16 false = true ∧ sget false (s.seen 0 1 (.cld 5 2 1)).f.spad.tagBad 4 = false
    ∧ b.ready 0 1 0 (.cld 5 2 1) = true ∧ sget false (b.seen 0 1 (.cld 5 2 1)).f.spad.tagBad 4 = true
    ∧ s.ready 0 1 0 (.cst 2 2 1) = true ∧ spadCheck pad (permWR ||| permSTC) 0x40 16 16 = none
    ∧ (s.seen 0 1 (.cst 2 2 1)).open_ 1 0x40 16 true = true ∧ s.ready 0 1 0 (.cmov 5 2 false) = true
    ∧ s.ready 0 1 0 (.cmov 5 2 true) = true ∧ s.ready 0 1 0 (.cinfo 5 2 7) = true := by decide +kernel
theorem witness_NarrowAndSealRows : let s := one sealer
    s.ready 0 1 0 (.cnarrow 5 2 2 1) = true ∧ (sealer.rc 2).tag = true ∧ (sealer.rc 2).sealWord = 0
    ∧ (sealer.rc 2).ubase + 0x20 ≤ (sealer.rc 2).ubase + (sealer.rc 2).len ∧ (sealer.rc 9).tag = false ∧ (sealer.rc 4).sealWord ≠ 0
    ∧ s.ready 0 1 0 (.cstamp 5 2 3 3) = true ∧ capUse (sealer.rc 3) 9 permSTAMP = none ∧ (sealer.rc 3).ubase ≤ 2
    ∧ 2 < (sealer.rc 3).ubase + (sealer.rc 3).len ∧ s.ready 0 1 0 (.credeem 5 4 3) = true ∧ capUse (sealer.rc 3) 9 permREDEEM = none
    ∧ (sealer.rc 4).sealSlot = 2 ∧ (sealer.rc 4).sealGen = 0
    ∧ (let o : State := on { thr := [(1, sealer)], tc := { en := 15 } } { gen := [(2, 1)] }
       o.ready 0 1 0 (.credeem 5 4 3) = true ∧ (sealer.rc 4).sealGen ≠ (sget 0 (o.core 0).t.gen 2).toNat)
    ∧ s.ready 0 1 0 (.ctest 4 3) = true ∧ s.ready 0 1 0 (.crevoke 3 3) = true ∧ capUse (sealer.rc 3) 9 permREVOKE = none := by decide +kernel
theorem witness_CnarrowOutsideRange : let s := one { sealer with g := [(2, 0x20001)] }
    s.ready 0 1 0 (.cnarrow 5 2 2 1) = true ∧ ¬ (sealer.rc 2).ubase + 0x20001 ≤ (sealer.rc 2).ubase + (sealer.rc 2).len := by decide +kernel
theorem witness_CapabilityRowsNeverWiden : let s := one sealer
    rowOp (.cstamp 0 1 0 5 2 3 3) = some (0, 1, 0, .cstamp 5 2 3 3) ∧ s.ready 0 1 0 (.cstamp 5 2 3 3) = true
    ∧ (match exec (.cstamp 0 1 0 5 2 3 3) s with
       | .next u => decide ((u.core 0).f.exc = (s.core 0).f.exc)
       | _ => false) = true := by decide +kernel

/-- Core 0 at L1 and L2 with a save set of a fault of thread 2, or of thread 0, and thread 0 holding a SYS capability in C3. -/
def saved (level : BitVec 2) (v : SaveSet) : State :=
  zero { c := [(3, mkCap 9 0xFFF 0x3FF 32 0)] } fun f => { f with exc := { level := level, l1 := v, l2 := v } }

theorem witness_TrapAndCauseEntry : one.ready 0 1 0 (.trap 0x21 3) = true ∧ (saved 2 {}).ready 0 0 0 (.trap 0x21 3) = true
    ∧ ((saved 2 {}).core 0).f.exc.level = 2 ∧ (one.core 0).l1Open = true ∧ (one.core 0).anyWaiting = false
    ∧ ((one.core 0).th 0).stepping = false ∧ (one.core 0).f.exc.l2.occ = false
    ∧ ((saved 1 { occ := true }).core 0).l1Open = false ∧ ((saved 2 { occ := true }).core 0).f.exc.l2.occ = true := by decide +kernel
theorem witness_SaveSetMoveRows : namedSet ((saved 1 {}).core 0) 0 true = none ∧ namedSet ((saved 1 {}).core 0) 0 false = some false
    ∧ namedSet ((saved 2 {}).core 0) 0 false = some true ∧ namedSet ((saved 2 {}).core 0) 0 true = some false
    ∧ namedSet (one.core 0) 1 false = none ∧ (saved 1 {}).ready 0 0 0 (.ssrd 9 1 false) = true
    ∧ (saved 1 {}).ready 0 0 0 (.sswr 6 1 false) = true ∧ (saved 2 {}).ready 0 0 0 (.scrd 2 1 false) = true
    ∧ (saved 2 {}).ready 0 0 0 (.scwr 0 1 true) = true := by decide +kernel
theorem witness_RfeRestoresTheSavedThread : let v : SaveSet := { occ := true, thread := 2 }
    one.ready 0 1 0 (.rfe 3) = true ∧ (saved 0 {}).ready 0 0 0 (.rfe 3) = true ∧ (saved 1 v).ready 0 0 0 (.rfe 3) = true
    ∧ (saved 2 v).ready 0 0 0 (.rfe 3) = true ∧ capUse (((saved 1 v).core 0).th 0 |>.rc 3) 9 0 = none
    ∧ derivable (((saved 1 v).core 0).th 0 |>.rc 3) v.scode = true ∧ derivable (((saved 1 v).core 0).th 0 |>.rc 3) v.sretCode = true
    ∧ derivable (((saved 1 v).core 0).th 0 |>.rc 3) (mkCap 15 0 0 1 0) = false := by decide +kernel

/-! ## Premises: the matrix unit, routing and delta -/

/-- Core 0 with one MMA accepted that targets accumulator 1. -/
def busy : State := one loaded1 fun f => { f with mx := { f.mx with queue := [⟨1, 0, 3, 0, true, 0, 0, false, false, {}, {}, {}, 0, 0, false⟩] } }

theorem witness_TileAndAccumulatorRows : let x := one.seen 0 1 (.mstat 1 0)
    one.ready 0 1 0 (.tcfg 7 8 1 3) = true ∧ one.ready 0 1 0 (.tcfg 11 9 0 0) = true ∧ x.drained = true
    ∧ busy.ready 0 1 0 (.tcfg 0 1 0 0) = true ∧ (busy.seen 0 1 (.tcfg 0 1 0 0)).drained = false
    ∧ one.ready 0 1 0 (.tfree 0xFF 0xF) = true ∧ x.mxBlocked = false ∧ one.ready 0 1 0 (.mstat 1 15) = true
    ∧ one.ready 0 1 0 (.aclr 0xF) = true ∧ one.ready 0 1 0 (.azero 0xF) = true ∧ (∀ i ∈ [0, 1, 2, 3], x.accPending i = false)
    ∧ one.ready 0 1 0 (.aget 1 3 3) = true ∧ (x.acc 3).poison = false ∧ one.ready 0 1 0 (.aput 1 3 3) = true
    ∧ (let s := one {} fun f => { f with mx := { f.mx with accs := [(3, { poison := true })] } }
       s.ready 0 1 0 (.aget 1 3 3) = true ∧ ((s.seen 0 1 (.aget 1 3 3)).acc 3).poison = true) := by decide +kernel
theorem witness_TileLoadAndStoreRows : let s := one { loaded1 with ag := [(0, { base := 0x40, step := 64, cap := some 2 })] }
    let x := s.seen 0 1 (.tld 3 0 true)
    s.ready 0 1 0 (.tld 3 0 true) = true ∧ s.ready 0 1 0 (.tst 3 0 true) = true ∧ x.mxBlocked = false ∧ x.f.mv = none ∧ ((s.core 0).th 1).stepping = false
    ∧ (x.tile 3).rows = 16
    ∧ x.f.mx.queue = [] ∧ (x.tile 3).err = []
    ∧ (List.range 16).all (fun r =>
        let g := iter AGen.step1 r (((s.core 0).th 1).rag 0)
        !g.illegal true && (((s.core 0).th 1).agCheck g permRD (x.tile 3).rowBytes (x.tile 3).rowAlign).isNone
        && (((s.core 0).th 1).agCheck g permWR (x.tile 3).rowBytes (x.tile 3).rowAlign).isNone
        && x.open_ 1 g.address.toNat (x.tile 3).rowBytes false && x.open_ 1 g.address.toNat (x.tile 3).rowBytes true) = true := by
  decide +kernel

/-- Core 0 with tiles 0 and 3 in use and tile 5 compressed, sampling as given. -/
def tiled (f : Matrix → Matrix) (checkEn : Bool) : State :=
  on { thr := [(1, {})], tc := { en := 15 }, mx := f { tiles := [(0, { inUse := true }), (3, { inUse := true }), (5, { layout := 1, shape := false })] } }
    { checkEn := checkEn }

theorem witness_MmaRowsAccepted : let s := tiled id false; let x := s.seen 0 1 (.mma 1 0 3 true 0 0)
    s.ready 0 1 0 (.mma 1 0 3 true 0 0) = true ∧ x.mxBlocked = false ∧ x.f.mx.queue.length < 2
    ∧ denseCheck (x.tile 0) (x.tile 3) (x.acc 1) 1 0 3 = none ∧ (denseCheck (x.tile 0) (x.tile 5) (x.acc 1) 1 0 5).isSome = true
    ∧ x.t.checkEn = false ∧ (tiled id true).ready 0 1 0 (.mma 1 0 3 true 0 0) = true ∧ 0 % 2 ^ 10 = 0 / (64 * 2 ^ 10) % 2 ^ 10
    ∧ ((tiled id true).core (checkerOf 0)).f.mx.check = none
    ∧ (let b := { tiled id true with cores := (tiled id true).cores ++ [(1, ({ f := { mx := { check := some ⟨0, ⟨1, 0, 3, 0, true, 0, 0, true, false, {}, {}, {}, 0, 0, false⟩, .taken, none, false, (0, 0), false⟩ } } } : Core))] }
       b.ready 0 1 0 (.mma 1 0 3 true 0 0) = true ∧ (b.core (checkerOf 0)).f.mx.check.isSome = true) := by decide +kernel
theorem witness_MmaSparseRowsAccepted :
    let s := tiled (fun m => { m with tiles := [(0, { inUse := true }), (3, { layout := 1, shape := false, inUse := true }), (4, { layout := 4, shape := false, inUse := true })] }) false
    let x := s.seen 0 1 (.mma 1 0 3 true 1 4)
    s.ready 0 1 0 (.mma 1 0 3 true 1 4) = true ∧ sparseCheck (x.tile 0) (x.tile 3) (x.tile 4) (x.acc 1) (x.acc 2) 1 0 3 4 1 = none := by
  decide +kernel

/-- Core 0 whose thread 1 routes: one expert behind endpoint 4, its half enabled, C6 a CHAN capability over endpoints 0 to 31. -/
def router (live : BitVec 64) : State :=
  one { loaded1 with c := [(2, pad), (6, mkCap 3 0xFFF 0 32 0), (15, pad)], g := [(1, 1), (2, 0x50007)] } fun f =>
    { f with sp := { f.sp with experts := 1, topk := 1, expert := [(0, 0x24)], live := live, payload := 1 }
             ch := { f.ch with out := [(4, { en := true })] } }

theorem witness_VrouteSelectsAndSends : let s := router (BitVec.allOnes 64); let x := s.seen 0 1 (.vroute 1 2 6 true true)
    s.ready 0 1 0 (.vroute 1 2 6 true true) = true ∧ x.f.run = none ∧ ((s.core 0).th 1).prog.valid = false ∧ ((s.core 0).th 1).stepping = false
    ∧ (((s.core 0).th 1).rg 1).toNat = 1 ∧ x.vrouteCap (((s.core 0).th 1).rc 6) = none ∧ x.f.sp.live.getLsbD 5 = true
    ∧ (router 0).ready 0 1 0 (.vroute 1 2 6 true true) = true ∧ ((router 0).core 0).f.sp.live.getLsbD 5 = false
    ∧ (((s.core 0).th 1).rag 0).illegal true = false ∧ ((s.core 0).th 1).agCheck (((s.core 0).th 1).rag 0) permRD 4 16 = none
    ∧ x.open_ 1 0x40 4 false = true ∧ ((s.core 0).th 1).agCheck (((s.core 0).th 1).rag 1) permRD 8 8 = none
    ∧ x.open_ 1 0x80 8 false = true ∧ (x.chOut 4).refusal = none ∧ (x.unacked 4).length = 0 ∧ x.f.ch.pool.length = 0
    ∧ x.f.sp.select [0x3F800000] = [(0, 0x3F800000)] ∧ x.f.sp.select [0x7FC00000] = [] := by decide +kernel
theorem witness_SelectionLeavesOneOut : let sp : Sparsity := { experts := 2, topk := 1, expert := [(0, 0x20), (1, 0x21)] }
    sp.cand 0 0x3F800000 = true ∧ (0, (0x3F800000 : Word)) ∉ sp.select [0x3F800000, 0x40000000] := by decide +kernel

/-- Core 0 with delta layer 3 enabled, in a key or a delta frame, and its four generators bound. -/
def gated (key : Bool) (en : Bool := true) : State :=
  one { loaded1 with g := [(1, 1)], ag := [(0, { base := 0x40, step := 64, cap := some 2 }), (1, { base := 0x80, step := 64, cap := some 2 }),
      (2, { base := 0xC0, step := 64, cap := some 2 }), (3, { base := 0x100, step := 1, cap := some 2 })] } fun f =>
    { f with dl := { f.dl with layers := [(3, { en := en, keyInt := 8, keyNow := key })] } }

theorem witness_DeltaFrameRows : (gated true).ready 0 1 0 (.vdelta 3 1) = true ∧ (gated false).ready 0 1 0 (.vdelta 3 1) = true
    ∧ (gated true).ready 0 1 0 (.dlframe 3 5 6) = true ∧ (gated true false).ready 0 1 0 (.dlframe 3 5 6) = true
    ∧ (let s := gated false; let x := s.seen 0 1 (.vdelta 3 1); let th := (s.core 0).th 1
       x.f.run = none ∧ th.prog.valid = false ∧ th.stepping = false ∧ th.rg 1 = 1 ∧ (x.dl 3).en = true
       ∧ (∀ j ∈ [0, 1, 2], (th.rag (BitVec.ofNat 2 j)).illegal true = false
         ∧ th.agCheck (th.rag (BitVec.ofNat 2 j)) (permRD ||| permWR) 64 64 = none
         ∧ x.open_ 1 (th.rag (BitVec.ofNat 2 j)).address.toNat 64 true = true ∧ x.open_ 1 (th.rag (BitVec.ofNat 2 j)).address.toNat 64 false = true)
       ∧ (th.rag 3).illegal true = false ∧ th.agCheck (th.rag 3) (permRD ||| permWR) 1 1 = none ∧ x.open_ 1 0x100 1 true = true) := by
  decide +kernel
/-- A lane at the threshold does not pass, one above it does, and a difference beyond the lane's range is held (R210). -/
theorem test_delta_lane_boundaries : (dlLane 0 5 10 5).2.2.1 = false ∧ (dlLane 0 5 11 5).2.2.1 = true
    ∧ (dlLane 0 5 0x7F 0x80).2.2.2 = true := by decide +kernel

/-! ## Premises: stands, channels and streams -/

/-- Core 0 in stand mode, thread 1 firing, port 2 with credit, C7 a STAND capability over stands 0 to 15 with CTL. -/
def stood : State :=
  one { firing := true, c := [(7, mkCap 7 0xFFF 0 16 0)] } fun f =>
    { f with st := { f.st with mode := true, ctxValid := 3, id := 5, tport := [(2, { en := true, limit := 4, bal := 4 })] } }

theorem witness_StandInstructionRows : stood.ready 0 1 0 (.ctxsw 1 2) = true ∧ (stood.core 0).f.st.mode = true
    ∧ (stood.core 0).f.st.ctxValid.getLsbD 1 = true ∧ (stood.core 0).f.st.swPend = false
    ∧ stood.ready 0 1 0 (.tsend 2 3 8 true) = true ∧ ((stood.core 0).tport 2).en = true ∧ ((stood.core 0).tport 2).bal ≠ 0
    ∧ ((stood.core 0).th 1).relq.length < 4 ∧ stood.ready 0 1 0 .tend = true ∧ ((stood.core 0).th 1).firing = true
    ∧ stood.ready 0 1 0 (.tstat 3 12) = true ∧ capUse (((stood.core 0).th 1).rc 7) 7 permCTL = none
    ∧ stood.ready 0 1 0 (.tdone 7 1) = true ∧ (∀ n ∈ [0, 1, 2], stood.ready 0 1 0 (.stctl 7 (BitVec.ofNat 2 n)) = true) := by
  decide +kernel

/-- Core 0 whose thread 1 holds CHAN in C6, CNTR in C7, DBG in C8 over grove 0 and RSPAD in C9 toward core 1, window 2; half 4 is as given,
half 5 receives and holds one message, counter 9 stands at 3, and the staged bytes are those given. -/
def talker (h : ChOut) (stag : BitVec 512 := 0x2000 * 2 ^ 32) : State :=
  one { c := [(6, mkCap 3 0xFFF 0 32 0), (7, mkCap 4 0xFFF 0 64 0), (8, mkCap 8 0xFFF 0 1 0), (9, mkCap 2 0xFFF (2 ^ 30 + 2 * 2 ^ 26) 0x1000 0)]
        g := [(1, 4), (2, 5), (3, 9), (4, 3), (5, 0x40)], stag := stag } fun f =>
    { f with ch := { f.ch with out := [(4, h)], inn := [(5, { en := true, q := [⟨0, 16, 0⟩] })], k := [(9, { val := 3 })] }
             dbg := { f.dbg with replyEn := true }
             win := { f.win with ocred := [(3, { en := true, tgt := 1, win := 2, limit := 8, bal := 512 })] } }

theorem witness_SendRows : let s := talker { en := true }
    s.ready 0 1 0 (.mput true 1 0) = true ∧ s.ready 0 1 0 (.send 6 1 8 true) = true ∧ capUse (((s.core 0).th 1).rc 6) 3 permSEND = none
    ∧ (talker {}).ready 0 1 0 (.send 6 1 8 true) = true
    ∧ ((talker {}).core 0 |>.chOut 4).en = false ∧ (talker { en := true, errRej := true }).ready 0 1 0 (.send 6 1 8 true) = true
    ∧ (let f := { talker { en := true, ext := true, tgt := 16 } with eths := [(0, { flows := [(2, { closed := true })] })] }
       f.ready 0 1 0 (.send 6 1 8 true) = true ∧ ((f.core 0).chOut 4).refusal = none
        ∧ ((f.core 0).chOut 4).namesAny (f.env 0).closed = true) ∧ ((s.core 0).chOut 4).namesAny (s.env 0).closed = false
    ∧ s.ready 0 1 0 (.cinc 6 1 31 true) = true ∧ s.ready 0 1 0 (.cinc 7 3 4 false) = true
    ∧ capUse (((s.core 0).th 1).rc 7) 4 permSEND = none := by decide +kernel
theorem witness_SendIsTaken : taken ((talker { en := true }).seen 0 1 (.send 6 1 8 true)) 1 4 true := by unfold taken; decide +kernel
theorem witness_ReceiveAndCounterRows : let s := talker { en := true }
    s.ready 0 1 0 (.recv 6 2 3 4) = true ∧ capUse (((s.core 0).th 1).rc 6) 3 permRECV = none ∧ ((s.core 0).chIn 5).q.length = 1
    ∧ (s.seen 0 1 (.recv 6 2 3 4)).open_ 1 0 16 false = true ∧ s.ready 0 1 0 (.cwait 7 3 4 false) = true
    ∧ capUse (((s.core 0).th 1).rc 7) 4 permRECV = none ∧ (((s.core 0).th 1).rg 4).toNat ≤ ((s.core 0).k 9).val.toNat
    ∧ ((s.core 0).k 9).val.toNat < (((s.core 0).th 1).rg 1).toNat ∧ s.ready 0 1 0 (.cwait 7 3 1 false) = true
    ∧ capUse (((s.core 0).th 1).rc 7) 4 permRD = none ∧ s.ready 0 1 0 (.crd 7 3 1 true) = true ∧ s.ready 0 1 0 (.chstat 6 1 2 true) = true := by
  decide +kernel
theorem witness_RemoteWriteAndDebugRequestRows : let s := talker { en := true }; let x := s.seen 0 1 (.send 9 5 8 true)
    s.ready 0 1 0 (.send 9 5 8 true) = true ∧ capUse (((s.core 0).th 1).rc 9) 2 permWR = none ∧ x.creditFor 1 2 = some 3
    ∧ (((s.core 0).th 1).rc 9).base / 2 ^ 30 % 2 ^ 18 = 1 ∧ (((s.core 0).th 1).rc 9).base / 2 ^ 26 % 2 ^ 4 = 2
    ∧ ((((s.core 0).th 1).rc 9).ubase + 0x40) % 8 = 0 ∧ 64 ≤ (x.ocred 3).bal.toNat ∧ x.f.win.rwOut.length < 32
    ∧ s.ready 0 1 0 (.send 8 1 2 false) = true ∧ capUse (((s.core 0).th 1).rc 8) 8 permRD = none
    ∧ (let q := regBytes 16 ((s.core 0).th 1).stag
       natOfBytes (q.take 4) = 0 ∧ natOfBytes ((q.drop 4).take 2) = 0x2000 ∧ q.getD 6 0 = 0 ∧ q.getD 7 0 = 0 ∧ q.drop 12 = [0, 0, 0, 0])
    ∧ (let w := regBytes 16 ((talker { en := true } (0x2000 * 2 ^ 32 + 2 ^ 48)).core 0 |>.th 1).stag
       w.getD 6 0 = 1 ∧ capUse (((s.core 0).th 1).rc 8) 8 permWR = none ∧ (((s.core 0).th 1).rc 8).perm &&& permCTL ≠ 0) := by decide +kernel

/-- Core 0 whose thread 1 holds MEM in C6 and SPAD in C2, a descriptor of 4 chunks of 64 bytes in G4 to G7, and stream 1 as given. -/
def streamer (v : Stream) : State :=
  one { loaded1 with c := [(2, pad), (6, mkCap 5 0xFFF 0 0x10000 0), (15, pad)]
                     g := [(4, 0), (5, 0x10000), (6, 2 ^ 24), (7, 4 + 2 * 2 ^ 24)] } fun f => { f with str := [(1, v)] }
/-- An open stream of thread 1 with two slots and four chunks. -/
def openStream : Stream := { st := 1, owner := 1, cr := pad, chunk := 1, total := 4, slots := 2, inner := 1 }

theorem witness_StreamRows : (streamer {}).ready 0 1 0 (.sopen 1 6 2 4) = true
    ∧ ((streamer {}).core 0).sopenCheck ((streamer {}).env 0) (((streamer {}).core 0).th 1) 1 6 2 4 = none
    ∧ (streamer openStream).ready 0 1 0 (.snext 1 8) = true ∧ openStream.next ≠ openStream.total
    ∧ ({ openStream with iss := 1 } : Stream).landed 0 = true ∧ ({ openStream with next := 4 } : Stream).next = 4
    ∧ (openStream.settle 1).commit ≠ openStream.total ∧ ({ openStream with dir := true } : Stream).slotFree = true
    ∧ (streamer { openStream with owner := 2 }).ready 0 1 0 (.snext 1 8) = true
    ∧ (streamer openStream).ready 0 1 0 (.sclose 1) = true ∧ openStream.out = [] ∧ openStream.unacked = []
    ∧ (streamer { openStream with st := 3 }).ready 0 1 0 (.sresume 1) = true
    ∧ (streamer openStream).ready 0 1 0 (.sstat 1 8 2) = true := by decide +kernel

/-! ## Premises: register rows and understory accesses -/

/-- Whether a host write reaches the register of core 0 at an offset. -/
def reach (s : State) (off : Nat) : Bool := coreOk 0 && s.dieUp (dieOf 0) && (s.accessStop 0 off true).isNone && (s.core 0).t.reqs.isEmpty

/-- Every register row of core 0 reaches its register in a running grove, at the least and greatest index. -/
theorem witness_RegisterRowsReach : [0x40, 0x44, 0xB0, 0xB0 + 0x20 * 10, 0x98, 0x344, 0x344 + 0x10 * 15, 0x444, 0x444 + 0x10 * 15, 0x628, 0x600,
    0x880, 0x880 + 0x10 * 15, 0x844, 0xC10, 0xC44, 0xC44 + 0x60, 0xCC4, 0xCC4 + 0x70, 0x1000, 0x1000 + 4 * 511, 0xE10, 0x1C04, 0x1C04 + 0x20 * 31,
    0x1C10, 0x1C10 + 0x20 * 31, 0xF4C, 0xF7C, 0xB8C, 0x540, 0xDA0, 0x2000, 0x2010, 0x2014, 0x2020, 0x202C, 0x4000, 0x707C].all (reach one) = true := by
  decide +kernel
theorem witness_ThreadAndSlotRegisterRows : (∀ t ∈ [0, 1, 2, 3], ownerOf 0xE4E4E4E4 t = t) ∧ (one.core 0).enabled 3 = true
    ∧ (∀ j ∈ List.range 16, ownerOf 0 j ≠ 3) ∧ (one.core 0).f.st.mode = false
    ∧ ((0x1F : Word).getLsbD 0 = true ∧ (0xE : Word).getLsbD 0 = false ∧ (0xE : Word).getLsbD 1 = true)
    ∧ (let s := one {} fun f => { f with tc := { f.tc with slotDue := true, slotPend := some 0xE4E4E4E4 } }
       s.runs 0 = true ∧ (s.core 0).f.tc.slotDue = true ∧ (s.core 0).f.tc.slotPend = some 0xE4E4E4E4)
    ∧ (((one { stop := 1 }).core 0).th 1).isStopped = true := by decide +kernel
theorem witness_ThreadMayNotBeDisabled : ((one.core 0).mayDisable 0, (one.core 0).enabled 0, (0 : Word).getLsbD 0) = (false, true, false) := by
  decide +kernel
theorem witness_CapSlotTagRows : kindBits pad.kind ≠ 0 ∧ pad.perm.toNat &&& (0xFFF - kindPerm pad.kind) ≠ 0
    ∧ (let v := mkCap 1 0x1F 0 0x20000 0
       v.perm.toNat &&& (0xFFF - kindPerm v.kind) = 0 ∧ v.ubase + v.len = kindLimit v.kind ∧ v.sealWord = 0 ∧ v.unusedZero = true)
    ∧ kindBits (mkCap 0 0 0 0 0).kind = 0 ∧ 10 < (11 : BitVec 4).toNat := by decide +kernel
theorem witness_WindowCreditAndRoutingRegisterRows :
    (let s := zero {} fun f => { f with exc := { f.exc with level := 2, l2 := { occ := true } } }
     reach s 0x98 = true ∧ (s.core 0).f.exc.l2.occ = true ∧ (s.core 0).f.exc.l2.thread = 0)
    ∧ (one.core 0).f.exc.l2.occ = false ∧ ((one.core 0).iwin 3).en = false ∧ ((one.core 0).iwin 3).base.toNat + 512 ≤ 512
    ∧ 0x10200 % 2 ^ 10 = 512 ∧ (0x10200 : Word).getLsbD 16 = true ∧ 0x10201 % 2 ^ 10 = 513
    ∧ (let s := one {} fun f => { f with win := { f.win with iwin := [(3, { en := true })], ocred := [(3, { en := true, limit := 4 })] } }
       reach s 0x374 = true ∧ ((s.core 0).iwin 3).en = true ∧ ((s.core 0).ocred 3).en = true ∧ ((s.core 0).ocred 3).limit.toNat ≠ 512)
    ∧ ((one.core 0).ocred 3).en = false ∧ coreOk ((one.core 0).ocred 3).tgt.toNat = true
    ∧ one.routeOk 0 0 ((one.core 0).orderTo 0) = true ∧ (one.core 0).routing = false
    ∧ (let s := one {} fun f => { f with run := some { unit := 3, thread := 1, stopped := false, op := .iflush, word := 0 } }
       (s.core 0).routing = true) ∧ 0x440 % 2 ^ 7 = 64 ∧ 0x440 / 2 ^ 8 % 2 ^ 3 = 4 ∧ 0x441 % 2 ^ 7 = 65 := by decide +kernel
theorem witness_DeltaAndStandRegisterRows : (one.core 0).deltaBusy 3 = false ∧ ((one.core 0).dl 3).en = false
    ∧ 0x400084 % 8 = 4 ∧ (BitVec.ofNat 8 (0x400084 / 2 ^ 4)) ≠ 0 ∧ (0x400084 : Word).getLsbD 22 = true ∧ 0x400083 % 8 = 3
    ∧ (stood.core 0).f.st.mode = true ∧ (stood.core 0).f.st.ctxValid.getLsbD 1 = true ∧ (stood.core 0).f.st.ctxValid.getLsbD 2 = false
    ∧ (stood.core 0).f.st.swPend = false ∧ reach stood 0xC10 = true
    ∧ ((one.core 0).tq 2).en = false ∧ 1024 * (127 + 1) ≤ 2 ^ 17 ∧ 2 ^ 17 < 1024 * (127 + 2)
    ∧ ((stood.core 0).tport 2).en = true ∧ ((stood.core 0).tport 2).limit.toNat = 4 ∧ ((stood.core 0).tport 3).en = false
    ∧ (stood.core 0).f.st.ctxValid.getLsbD (255 / 128) = true ∧ (stood.core 0).f.st.ctxValid.getLsbD (256 / 128) = false := by decide +kernel
theorem witness_SwitchPendingAndQueueEnabled :
    let s := one {} fun f => { f with st := { f.st with swPend := true, tq := [(2, { en := true, toks := [⟨0, 1, []⟩] })] } }
    reach s 0xC84 = true ∧ (s.core 0).f.st.swPend = true ∧ ((s.core 0).tq 2).en = true := by decide +kernel
theorem witness_ChannelAndStreamRegisterRows : 0x49 % 2 ^ 6 = 9 ∧ 0x49 / 2 ^ 6 = 1 ∧ 0x3F / 2 ^ 6 = 0
    ∧ ((one.core 0).chOut 4).en = false ∧ ((one.core 0).chOut 4).ext = false ∧ ((one.core 0).chOut 4).order.toNat ≤ 1
    ∧ coreOk ((one.core 0).chOut 4).tgt.toNat = true ∧ one.routeOk 0 0 false = true
    ∧ (let s := talker { en := true }
       ((s.core 0).chOut 4).en = true ∧ ((s.core 0).chIn 5).en = true ∧ ((s.core 0).chIn 6).en = false
       ∧ overlap 0 512 (512 * ((s.core 0).chIn 5).qbase.toNat) 512 = true ∧ overlap 512 512 (512 * ((s.core 0).chIn 5).qbase.toNat) 512 = false)
    ∧ ((streamer { openStream with st := 3 }).core 0 |>.str 1).st = 3 ∧ ((streamer openStream).core 0 |>.str 1).st = 1
    ∧ ((streamer {}).core 0 |>.str 1).st = 0 := by decide +kernel
theorem witness_RouteRefused : let s := { one with groves := [(0, ({ on := true } : Grove)), (1, { unavail := true })] }
    coreOk 16 = true ∧ s.routeOk 0 16 false = false ∧ reach s 0x1C04 = true := by decide +kernel
theorem witness_CheckResetAndDebugRegisterRows : 0x1A % 16 ≤ 10 ∧ ¬ 0x1B % 16 ≤ 10 ∧ one.inRun 0 = false ∧ (one.core 0).f.exc.l2double = false
    ∧ ((one.core 0).th 1).stop = 0 ∧ (((one { stop := 1 }).core 0).th 1).stop ≠ 0
    ∧ (∀ j ∈ [0, 1, 2, 3], ¬ ((0x212 : Word).getLsbD j = true ∧ (0x212 : Word).getLsbD (4 + j) = true)) ∧ (one.core 0).f.dbg.traceMode = 0
    ∧ 0x41 % 4 = 1 ∧ ((one { stop := 1 }).core 0).windowOpen 1 = true := by decide +kernel
theorem witness_WindowClosedAndStandRuns : (one.core 0).windowOpen 1 = false
    ∧ (let s := { stood with stands := [(5, ({ loaded := true, run := true, a := 0, b := 0 } : StandRec))] }
       s.inRun 0 = true ∧ reach s 0xDA0 = true)
    ∧ (let s := on {} { resetMark := true }
       coreOk 0 = true ∧ (s.core 0).t.resetMark = true ∧ s.gstate 0 ≠ 3) := by decide +kernel
theorem witness_UnderstoryAccess : targetOk (.core 0) = true ∧ targetOk (.core 0x3FFFF) = false ∧ State.reset.dieUp (dieOf 0) = false
    ∧ one.dieUp (dieOf 0) = true ∧ (one.core 0).t.reqs = [] ∧ ((on {} { session := 3 }).core 0).t.session ≠ 0 ∧ (on {} { session := 3 }).dbgGrant 0 = false
    ∧ (let g := fun (v : Grove) => { one with groves := [(0, v)] }
       (g { unavail := true }).gstate 0 = 6 ∧ (g { fence := true }).gstate 0 = 5 ∧ (g {}).gstate 0 = 0 ∧ (g { on := true, gated := true }).gstate 0 = 2)
    ∧ (trunkHeld 0x40 || decide (0x40 = 0xDC0)) = false ∧ (trunkHeld 0xDC0 || decide (0xDC0 = 0xDC0)) = true := by decide +kernel

theorem witness_Bar2Access : ({ State.reset with cxl := { link := true } } : State).cxl.link = true ∧ (1 : Word).getLsbD 0 = true
    ∧ (2 : Word).getLsbD 0 = false := by decide +kernel
/-- R346: clearing the mask bit of a vector with a message pending sends it, with the entry's address and data. -/
theorem test_bar2_unmask :
    (match exec (.configRegisterWrite .bar2 0x3C 0) { State.reset with cxl := { link := true, msix := [(3, (0xFEE00000, 7))], pba := [(3, true)] } } with
     | .next u => decide (u.cxl.msg = some (0xFEE00000, 7) ∧ u.cxl.pba = [] ∧ u.cxl.mask = [(3, false)])
     | _ => false) = true := by decide +kernel

/-! ## Premises: what a core does by itself -/

/-- Core 0 with thread 2 alone, standing at a word in its fetch buffer. -/
def lonely (w : Word) : State := on { thr := [(2, { fbuf := [⟨w, false⟩], c := [(15, pad)] })], tc := { en := 4 } }

theorem witness_DieCycle : rowOp (.movi 0 1 0 1 2) = some (0, 1, 0, .movi 1 2) ∧ coreOk 0 = true ∧ (on {}).runs 0 = true
    ∧ ((on {}).core 0).canIssue 1 = false ∧ ((on {}).core 0).running 1 = false
    ∧ ((on {}).core 0).inProgress = [] ∧ State.reset.runs 0 = false ∧ coreOk 0x3FFFF = false ∧ (on {}).dieUp (dieOf 0) = true
    ∧ (∀ v ∈ [0, 1, 2, 3], ((on {}).core 0).enabled v = false)
    ∧ decodeOp 0x01820005 = some (0, .movi 1 5) ∧ decodeOp 0x00021101 = some (0, .alu .add 1 1 2 true) := by decide +kernel
theorem witness_DieCycleAloneMovi : ((lonely 0x01820005).core 0).alone 2 0x01820005 (.movi 1 5) := by
  unfold Core.alone; refine ⟨?_, ?_, ?_, ?_, ?_, ?_, ?_, ?_, ?_, ?_, ?_, ?_⟩ <;> first | decide +kernel | rfl
theorem witness_DieCycleAloneAlu : ((lonely 0x00022101).core 0).alone 2 0x00022101 (.alu .add 1 2 2 true) := by
  unfold Core.alone; refine ⟨?_, ?_, ?_, ?_, ?_, ?_, ?_, ?_, ?_, ?_, ?_, ?_⟩ <;> first | decide +kernel | rfl
theorem witness_EntriesReleasesAndDetectorRows :
    (let s := zero {} fun f => { f with spad := { f.spad with wb := [7, 9] }, exc := { f.exc with pend := 0x2000 } }
     (s.core 0).f.spad.wb = [7, 9] ∧ (s.core 0).enabled 0 = true ∧ (s.core 0).f.exc.pend.getLsbD 13 = true
     ∧ (∀ j ∈ List.range 13, (s.core 0).f.exc.pend.getLsbD j = false) ∧ s.runs 0 = true ∧ (s.core 0).t.reqs = [])
    ∧ (let s := one { saveWait := some ⟨3, 0, 0, 0, {}, {}⟩ }
       ((s.core 0).th 1).saveWait.isSome = true ∧ (s.core 0).l1Free = true ∧ (s.core 0).asyncDue = none ∧ (s.core 0).f.exc.l2double = false
       ∧ ((s.core 0).th 0).stepping = false ∧ ((s.core 0).th 2).saveWait = none
       ∧ ((s.core 0).th 3).saveWait = none ∧ s.runs 0 = true)
    ∧ ((saved 1 { occ := true }).core 0).f.exc.l1.occ = true
    ∧ (∀ r ∈ [Release.mk (.kadd 9 1) [] [], ⟨.kadd 9 0, [], []⟩, ⟨.pool 3, [], []⟩, ⟨.pkt ⟨.core 0, .core 1, false, 0, 1, .rwack 0 0⟩, [], []⟩, ⟨.nothing, [4], []⟩],
        let s := one { relq := [r] } fun f => { f with win := { f.win with rwOut := [⟨4, 1, 0, 0⟩] } }
        s.runs 0 = true ∧ ((s.core 0).th 1).relq = [r] ∧ ((∀ i ∈ r.rw, ∀ o ∈ (s.core 0).f.win.rwOut, o.id ≠ i) ↔ r.rw = []) ∧ r.wr = [])
    ∧ ((on {} { qwDue := some 3 }).core 0).t.qwDue = some 3 ∧ ((on {}).core 0).t.qwDue = none := by decide +kernel

/-- Core 0 in stand mode, running, thread 1 waiting, trigger 0 on queue 1, which holds one token of context 0. -/
def triggered (pend : Bool) : State :=
  one { started := true } fun f => { f with st := { f.st with mode := true, run := true, ctxValid := 3, swPend := pend, swCtx := 1, swDisp := 2
                                                              store := [(0, 0x80012)], tq := [(1, { en := true, toks := [⟨0, 3, [1, 2]⟩] })] } }

theorem witness_FiringSwitchAndStallRows : let x := (triggered false).core 0
    x.f.st.run = true ∧ x.standWaits = true ∧ x.switchReady = false ∧ x.triggerReady 0 = true ∧ (triggered false).runs 0 = true
    ∧ (one.core 0).firingOf = none ∧ ((triggered true).core 0).f.st.swPend = true ∧ (((triggered true).core 0).th 1).firing = false
    ∧ ((on {} { stallDue := true }).core 0).t.stallDue = true ∧ (on {} { stallDue := true }).gstate 0 = 1 := by decide +kernel
theorem witness_OldestToken : oldestOf (((triggered false).core 0).tq 1) 0 0 ⟨0, 3, [1, 2]⟩ :=
  ⟨by decide +kernel, rfl, fun i y h => absurd h (Nat.not_lt_zero i)⟩
theorem witness_RefillStreamIssueAndGatingRows :
    (let s := one {} fun f => { f with st := { f.st with tq := [(1, { en := true, extUnits := 1, ext := [⟨0, 0, 3, 8, false⟩] })] } }
     ((s.core 0).tq 1).toks.length < 16 ∧ ((s.core 0).tq 1).ext.length = 1 ∧ ((s.core 0).tq 0).ext = []
     ∧ (s.core 0).f.spad.firstUe (wordsOf 0 8) = none)
    ∧ (let s := streamer { openStream with cm := mkCap 5 0xFFF 0 0x10000 0, outer := 1 }
       (s.core 0).turn = some (1, 0, 0) ∧ s.runs 0 = true)
    ∧ (let s := { State.reset with groves := [(0, { on := true })], cores := (groveCores 0).map fun w => (w, { t := { idleEn := true, idleCnt := 64 } }) }
       (s.grove 0).state = 1 ∧ (groveCores 0).all (fun w => (s.core w).t.idleEn && decide (64 ≤ (s.core w).t.idleCnt)) = true)
    ∧ (one.grove 0).state = 1 ∧ 0 ∈ groveCores 0 ∧ (one.core 0).t.idleEn = false := by decide +kernel
/-- A stack's worth of ports trained: the request of stream 1 resolves to a port. -/
theorem witness_StreamRequestResolves : let s := { streamer { openStream with cm := mkCap 5 0xFFF 0 0x10000 0, outer := 1 } with
      ports := (List.range 64).map fun m => (m, { train := 2 }) }
    (match s.resolve 0 ((s.core 0).str 1).cm (((s.core 0).str 1).chunkAddr 0) with
     | .inr _ => true
     | .inl _ => false) = true := by decide +kernel
theorem witness_GroveWakes :
    let s := { on {} { held := [⟨.core 1, .core 0, false, 0, 1, .ack 0 0 0⟩] } with groves := [(0, { on := true, gated := true })] }
    (s.grove 0).gated = true ∧ (s.core 0).t.held.length = 1
    ∧ (let u := { s with groves := [(0, ({ on := true } : Grove))] }
       u.gstate 0 = 1 ∧ ((u.core 0).t.held.all fun p => !p.isDma) = true) := by decide +kernel

/-! ## Premises: landings and departures -/

/-- Core 0 with one packet from core 1 waiting at its local port, and a second behind it. -/
def arrived (b : Body) (f : Field → Field := id) : State :=
  on (f { tc := { en := 15 } }) { inbox := [⟨.core 1, .core 0, false, 0, 1, b⟩, ⟨.core 1, .core 0, false, 0, 1, b⟩] }
/-- The packet at the front. -/
def front (s : State) : Option Body := (s.core 0).t.inbox.head?.map (·.body)

theorem witness_Landings : coreOk 0 = true
    ∧ (∀ b ∈ [Body.ack 4 0 0, .nack 4 0 0, .resume 4 0 0, .reject 4 0 0 .cleared, .rwack 3 1, .credit 2 1, .tcredit 3 1 true,
        .wack 6 1 0 0, .wack 6 1 0 5, .rrep 6 1 0 0 [7], .rrep 6 1 0 5 [], .rpiece 6 1 0 64 [7] true, .sig 4 5 0 0 1 0],
      let s := arrived b
      s.runs 0 = true ∧ (s.core 0).t.reqs = [] ∧ (s.core 0).t.rwait ≠ 1 ∧ front s = some b
        ∧ ∀ q ∈ (s.core 0).t.inbox, q.isDma = false)
    ∧ (⟨.core 1, .core 0, false, 0, 1, .ack 4 0 0⟩ : Packet).srcWord = 1 := by decide +kernel
theorem witness_RemoteWriteAndCreditLandings :
    let w : IWin := { en := true, src := 1, base := 1, len := 1 }
    let s := arrived (.rwrite 3 2 0x100 [1, 2] none) fun f => { f with win := { f.win with iwin := [(2, w)], rwOut := [⟨3, 1, 4, 1⟩],
                                                                                           ocred := [(4, { en := true, tgt := 1, win := 2, limit := 4 })] } }
    ((s.core 0).iwin 2).en = true ∧ ((s.core 0).iwin 2).src.toNat = 1 ∧ 256 * 1 ≤ (0x100 : BitVec 17).toNat
    ∧ (0x100 : BitVec 17).toNat + 64 ≤ 256 * 1 + 256 * 1 ∧ (s.core 0).f.sp.zrIn.getLsbD 2 = false ∧ ((arrived (.ack 0 0 0)).core 0 |>.iwin 2).en = false
    ∧ ((arrived (.ack 0 0 0) fun f => { f with sp := { f.sp with zrIn := 4 } }).core 0).f.sp.zrIn.getLsbD 2 = true
    ∧ (s.core 0).f.spad.firstUe [0] = none ∧ natOfBytes ([0, 0, 0, 0, 0, 0, 0, 0] : List Byte) = 0
    ∧ (s.core 0).f.win.rwOut.find? (fun r => decide (r.id = 3)) = some ⟨3, 1, 4, 1⟩ ∧ (s.core 0).creditFor 1 2 = some 4
    ∧ (s.core 0).creditFor 2 2 = none := by decide +kernel
theorem witness_TokenLandings :
    let s := fun (q : TQueue) => arrived (.token 3 1 0 [7]) fun f => { f with st := { f.st with mode := true, ctxValid := 1, tq := [(1, q)], tport := [(3, { en := true, limit := 4 })] } }
    let q : TQueue := { en := true, src := 1 }
    let full : TQueue := { q with extUnits := 1, toks := List.replicate 16 ⟨0, 3, []⟩ }
    front (s q) = some (.token 3 1 0 [7]) ∧ (s q |>.core 0 |>.f.st.mode) = true ∧ ((s q).core 0).f.st.ctxValid.getLsbD 0 = true
    ∧ (((s q).core 0).tq 1).total < 16 + 16 * 0 ∧ (((s q).core 0).tq 1).ext = [] ∧ 16 ≤ (((s full).core 0).tq 1).toks.length
    ∧ (((s full).core 0).tq 1).total < 16 + 16 * 1 ∧ (((s {}).core 0).tq 1).en = false
    ∧ (((s q).core 0).tport 3).en = true ∧ (((s q).core 0).tport 2).en = false := by decide +kernel
theorem witness_StreamLandings :
    let s := fun (v : Stream) => arrived (.rrep 6 1 0 0 [7]) fun f => { f with str := [(1, v)] }
    let v : Stream := { openStream with out := [⟨6, 0, 0, false⟩], iss := 1 }
    front (s v) = some (.rrep 6 1 0 0 [7]) ∧ ((s v).core 0).t.epoch = 0 ∧ (((s v).core 0).str 1).out.find? (fun r => decide (r.id = 6)) = some ⟨6, 0, 0, false⟩
    ∧ (((s v).core 0).str 1).st ≠ 4 ∧ (((s { v with dir := true }).core 0).str 1).dir = true ∧ v.resumable = false ∧ ((s {}).core 0 |>.str 1).out = [] ∧ v.dir = false := by decide +kernel
theorem witness_ChannelLandings :
    let h : ChIn := { en := true, src := 1, srcEp := 4, sigEn := true }
    let s := fun (h : ChIn) (tok : Word) (live : BitVec 64) => arrived (.msg 4 5 0 0 (bytesOfNat 16 (2 * 2 ^ 8 + 3 * 2 ^ 10))) fun f =>
      { f with ch := { f.ch with inn := [(5, h)] }, sp := { f.sp with tokenEp := tok, live := live } }
    ((s h 0 0).core 0).f.sp.tokenEp.getLsbD 5 = false ∧ ((s h 0x20 0).core 0).f.sp.tokenEp.getLsbD 5 = true
    ∧ (((s h 0 0).core 0).chIn 5).q.length < 8 ∧ (((s h 0 0).core 0).chIn 5).src.toNat = 1
    ∧ 8 ≤ (((s { h with q := List.replicate 8 ⟨0, 8, 0⟩ } 0 0).core 0).chIn 5).q.length ∧ (((s {} 0 0).core 0).chIn 5).en = false
    ∧ (((s { h with seqExp := 1 } 0 0).core 0).chIn 5).seqExp ≠ 0
    ∧ ((s h 0x20 0).core 0).f.sp.live.getLsbD 3 = false ∧ ((s h 0x20 8).core 0).f.sp.live.getLsbD 3 = true
    ∧ (∀ k ∈ [0, 2, 3], natOfBytes ((bytesOfNat 16 (k * 2 ^ 8 + 3 * 2 ^ 10)).take 8) / 2 ^ 8 % 4 = k) ∧ ((s h 0x20 8).core 0).f.sp.fwd.length < 4 := by decide +kernel
theorem witness_ResponsesAndDepartures :
    let s := fun (m : PoolMsg) => arrived (.sig 4 5 0 0 1 0) fun f =>
      { f with ch := { f.ch with out := [(4, { en := true })], pool := [m], inn := [(6, { en := true, resumeDue := true, gapSrc := some (.core 1) })] } }
    front (s {}) = some (.sig 4 5 0 0 1 0) ∧ ((s {}).core 0 |>.chOut 4).tag = 0 ∧ ((arrived (.ack 4 0 9)).core 0 |>.chOut 4).tag ≠ 9
    ∧ ((s {}).core 0 |>.chIn 6).resumeDue = true ∧ (∀ j ∈ [0, 1, 2, 3, 4, 5], ((s {}).core 0 |>.chIn j).resumeDue = false)
    ∧ ((s {}).core 0 |>.chIn 6).gapSrc = some (.core 1) ∧ ((s {}).core 0).f.sp.fwd = []
    ∧ ((s { resend := true }).core 0).f.ch.pool.find? (fun m => m.resend) = some { resend := true }
    ∧ ((s { ep := 4 }).core 0).f.ch.pool.any (fun m => m.resend) = false ∧ ((s { ep := 4 }).core 0).f.ch.pool.head? = some { ep := 4 }
    ∧ ((s { ep := 4 }).core 0 |>.chOut 4).recovery = false ∧ ((s { ep := 4 }).core 0 |>.chOut 4).ext = false := by decide +kernel

/-! ## Premises: the array, checks and notices -/

/-- An accepted MMA on accumulator 1 from tiles 0 and 3. -/
def job (started sampled : Bool) : MmaJob := { acc := 1, ta := 0, tb := 3, tm := 0, z := true, sp := 0, n := 0, sampled := sampled, started := started }
/-- Core 0 with a queue of MMAs and a check buffer; core 1, its checker, holds a check of core 0's first MMA. -/
def computing (j : MmaJob) (b : CheckBuf) : State :=
  { one {} (fun f => { f with mx := { f.mx with queue := [j] } }) with
    cores := [(0, { f := { tc := { en := 15 }, mx := { queue := [j] } } }), (1, { f := { mx := { check := some b } } })] }

theorem witness_MatrixArrayAndCheckRows :
    let s := computing (job false true) ⟨0, job false true, .taken, none, false, (0, 0), false⟩
    let r := fun (p : CheckPhase) => computing (job true false) ⟨0, job true true, p, some (0, 0), false, (1, 0), false⟩
    (s.core 0).f.mx.queue = [job false true] ∧ (s.core 0).arrayFree = true ∧ s.repeating 0 = false
    ∧ (∀ i ∈ [0, 1, 2, 3, 4, 5, 6, 7], ((s.core 0).tile i).err = []) ∧ s.runs 0 = true ∧ checkerOf 0 = 1
    ∧ (s.core 1).f.mx.check = some ⟨0, job false true, .taken, none, false, (0, 0), false⟩
    ∧ ((computing (job false false) ⟨0, job false false, .taken, none, false, (0, 0), false⟩).core 0).f.mx.queue = [job false false]
    ∧ ((r .ready).core 0).f.mx.queue = [job true false] ∧ (job true false).cls = .int ∧ (r .ready).runs 1 = true
    ∧ ((r .ready).core 1).arrayFree = true ∧ (r .ready).repeating 1 = false ∧ (((r .running).core 1).f.mx.check.map (·.phase)) = some .running
    ∧ (((r .repeating).core 1).f.mx.check.map (·.phase)) = some .repeating ∧ (r .repeating).stewards (dieOf 0) = true
    ∧ (r .repeating).gstate 0 = 1 ∧ (r .repeating).lead.tests = [] ∧ (r .repeating).loadedStands = [] := by decide +kernel
/-- The repeat of an MMA whose operands are zero: equal flips agree, unequal ones do not. -/
theorem witness_RepeatAgreesOrNot : (job true true).sums 0 = (job true true).sums 0 ∧ (job true true).sums 0 ≠ (job true true).sums 1 := by
  decide +kernel

/-- Core 0 with one notice for the stewards of die 0, in a loaded stand 5. -/
def noticed (n : Notice) (posted : Bool := false) (session : Nat := 0) : State :=
  { on {} { notices := [n], session := session } with stands := [(5, { loaded := true, a := 0, b := 0, stallPosted := posted })] }

theorem witness_NoticeRows : (noticed (.l2 0 0)).stewards (dieOf 0) = true ∧ ((noticed (.spadUe 8)).core 0).t.notices = [.spadUe 8]
    ∧ ((noticed .tileUe).core 0).t.notices = [.tileUe] ∧ ((noticed (.ctxUe 8)).core 0).t.notices = [.ctxUe 8]
    ∧ (on {} { notices := [.l2double] }).standOf 0 = none ∧ (noticed .stall).standOf 0 = some 5 ∧ ((noticed .stall).stand 5).stallPosted = false
    ∧ ((noticed .stall true).stand 5).stallPosted = true ∧ ((noticed (.streamHalt 1 0 1 0)).core 0).t.notices = [.streamHalt 1 0 1 0]
    ∧ Notice.traceFull.isDebug = true ∧ ((noticed .traceFull).core 0).t.session = 0 ∧ ((noticed .traceFull false 3).core 0).t.session ≠ 0
    ∧ (noticed .traceFull false 3).dbgGrant 0 = false
    ∧ (let s := { noticed (.spadUe 8) with dies := [(0, { phase := 2, stewLost := true })] }
       s.dieUp (dieOf 0) = true ∧ s.stewards (dieOf 0) = false ∧ (Notice.spadUe 8).isDebug = false ∧ (s.die (dieOf 0)).queue = []) := by decide +kernel
theorem witness_DebugReplyAndStallEvent :
    let q : DbgReq := ⟨0, 0, 0x40, false, 0⟩
    let s := one {} fun f => { f with dbg := { f.dbg with reqs := [q] }, ch := { f.ch with pool := [{ dbg := true, sent := true }] } }
    let r : Ring := { en := true, log := 8, base := 0x1000 }
    let e := { State.reset with events := r, lead := { State.reset.lead with backlog := [.stall 5 0 [0, 1] none] } }
    (s.core 0).f.dbg.reqs = [q] ∧ s.runs 0 = true ∧ (s.core 0).f.ch.pool.find? (fun m => m.dbg) = some { dbg := true, sent := true } ∧ (s.debugAccess 0 q).1 < 256
    ∧ ((s.debugAccess 0 q).2.2.core 0).f.dbg.reqs = [q] ∧ e.lead.backlog = [.stall 5 0 [0, 1] none] ∧ e.lead.lostNow = 0 ∧ e.events.en = true ∧ e.events.irqEn = false
    ∧ e.events.tail + 16 < e.events.size ∧ e.events.used + 16 ≤ e.events.size := by decide +kernel

/-! ## Premises: mesh, memory ports, the host window, BAR0 and rings -/

/-- Core 0's router with one flit from the local port, toward a core. -/
def flying (dst : Nat) : State :=
  { on {} { router := { inq := [(16, [⟨⟨.core 0, .core dst, false, 0, 1, .ack 4 0 0⟩, 0⟩])] } } with dies := [(0, { phase := 2 }), (1, { phase := 2 })] }
/-- A core at the east seam of die 0 with such a flit, and its neighbour behind the seam. -/
def east : Nat := wordXY 79 0
def crossing : State :=
  { State.reset with
    dies := [(0, { phase := 2 }), (1, { phase := 2 })]
    cores := [(east, { t := { router := { inq := [(16, [⟨⟨.core east, .core (wordXY 80 0), false, 0, 1, .ack 4 0 0⟩, 0⟩])] } } })] }

theorem witness_MeshRowsMoveFlits :
    nextSide 0 2 false = some 1 ∧ neighbour 0 1 = some 1 ∧ isSeam 0 1 = false ∧ (flying 2).dieUp (dieOf 1) = true
    ∧ nextSide 0 0 false = none ∧ ((⟨.core 1, .core 0, false, 0, 1, .ack 4 0 0⟩ : Packet).exit) = (0, 4) ∧ (flying 0).gstate 0 = 1
    ∧ (flying 0 |>.grove 0).selfTest = false ∧ (⟨.core 0, .core 0, false, 0, 1, .ack 4 0 0⟩ : Packet).isDma = false
    ∧ isSeam east 1 = true ∧ neighbour east 1 = some (wordXY 80 0) ∧ nextSide east (wordXY 80 0) false = some 1
    ∧ vcCount (sget [] (crossing.core (wordXY 80 0)).t.router.xq 3) 0 < 6 ∧ crossing.dieUp (dieOf (wordXY 80 0)) = true
    ∧ (crossing.grove (groveOf east)).unavail = false := by decide +kernel
theorem witness_MeshFlitIsAlone : (List.range 28).all (fun k => decide (k = 16) || (sget [] ((flying 2).core 0).t.router.inq k).isEmpty) = true
    ∧ (sget [] ((flying 2).core 0).t.router.inq 16).length = 1 ∧ ((flying 2).core 0).t.outq = []
    ∧ (let r := ((flying 2).core 0).t.router
       r.attSrc = [] ∧ r.engSrc = [] ∧ r.attIn = [] ∧ r.attOut = [] ∧ r.hold = []) := by decide +kernel
/-- A flit at the attachment core of its memory port. -/
theorem witness_MeshFlitTowardAPort : let p : Packet := ⟨.core 0, .mem 0, false, 0, 1, .rreq 3 1 0 0 64⟩
    p.exit = ((memLink 0 0).1, 5 + (memLink 0 0).2) ∧ (memLink 0 0).2 < 2 ∧ nextSide (memLink 0 0).1 p.exit.1 p.yx = none := by decide +kernel
theorem witness_SeamCrossing : let s := on {} { router := { xq := [(1, [⟨⟨.core 9, .core 0, false, 0, 1, .ack 4 0 0⟩, 0⟩])] } }
    (sget [] (s.core 0).t.router.xq 1).length = 1 ∧ (sget [] (s.core 0).t.router.inq 4).length < 4 := by decide +kernel

/-- All ports trained, all dies up, and port 0 as given. -/
def memory (p : Port) : State :=
  { State.reset with dies := (List.range 25).map fun d => (d, { phase := 2 })
                     ports := (0, p) :: ((List.range 63).map fun m => (m + 1, ({ train := 2 } : Port))) }
/-- A held read request of an engine, placed. -/
def held (src : Node) (kind : BitVec 2) : PReq :=
  { src := src, id := 3, kind := kind, stream := 0, epoch := 0, session := 0, addr := 0, off := 0, len := 64, data := [], placed := some (0, []) }

theorem witness_MemoryPortRows : let p : Packet := ⟨.dma 0, .mem 0, false, 0, 1, .dread 3 0 64⟩
    let s := memory { train := 2, mergeEn := false, direct := [p] }
    (match s.mapAddr 0 with
     | .inr (m, _) => decide (m < 64)
     | .inl _ => false) = true
    ∧ s.sealStop 0 (s.reqSession p.src 3) = false ∧ (s.port 0).direct = [p] ∧ (s.port 0).reqs = [] ∧ (s.port 0).lost = false
    ∧ (s.port 0).hostq = [] ∧ p.src ≠ .cxl
    ∧ (s.port 0).mergeEn = false ∧ linesIn 0 64 = [0] ∧ (s.port 0).filter = [] ∧ sget 0 (s.port 0).err 0 = 0
    ∧ ((memory { reqs := [held (.core 0) 0] }).port 0).reqs = [held (.core 0) 0] ∧ ((memory { reqs := [held (.core 0) 1] }).port 0).reqs.length = 1
    ∧ (held (.dma 0) 2).placed = some (0, []) ∧ (List.range 58).any (fun e => decide (beside e = .mem 0)) = true
    ∧ ((memory { train := 2, err := [(0, 1)] }).port 0).train = 2 ∧ sget 0 ((memory { train := 2, err := [(0, 2)] }).port 0).err 0 = 2
    ∧ s.stewards (portDie 0) = true ∧ ({ s with dies := [] } : State).stewards (portDie 0) = false := by
  decide +kernel
/-- Where device address 0 lies. -/
theorem witness_DeviceAddressZero : (memory { train := 2 }).mapAddr 0 = .inr (0, 0) := by decide +kernel
theorem witness_PortTakesFromItsLink :
    let s := (memory { train := 2, mergeEn := false }).setCore (memLink 0 0).1 { t := { router := { attOut :=
      [((memLink 0 0).2, [⟨⟨.core 0, .mem 0, false, 0, 1, .rreq 3 1 0 0 64⟩, 0⟩])] } } }
    (sget [] (s.core (memLink 0 0).1).t.router.attOut (memLink 0 0).2).length = 1 ∧ s.sealStop 0 (s.reqSession (.core 0) 3) = false := by decide +kernel

/-- The memory with the host's window committed over 1 TiB at 0x100000. -/
def windowed (p : Port) (c : Cxl → Cxl := id) : State :=
  { memory p with cxl := c { link := true, memActive := true, hdm := some (0x100000, 0x10000000000) } }

theorem witness_HostWindowRows :
    let s := windowed { train := 2, mergeEn := false }
    let q := { held (.core 0) 0 with placed := none }
    s.cxl.hdm = some (0x100000, 0x10000000000) ∧ s.cxl.memActive = true ∧ 0x10000000000 ≤ 2 ^ 41 ∧ s.sealStop 0 0 = false ∧ (s.port 0).filter = []
    ∧ ({ s with lead := { s.lead with regions := [⟨0, 4096, 1⟩] } } : State).sealStop 0 0 = true ∧ (s.port 0).hostq = [] ∧ sget 0 (s.port 0).err 0 = 0 ∧ (s.port 0).mergeEn = false
    ∧ (windowed {} fun c => { c with cut := true }).cxl.cut = true ∧ (windowed {} fun c => { c with hdm := none }).cxl.hdm = none
    ∧ (let h := windowed { train := 2, filter := [0], reqs := [q] }
       (h.port 0).reqs = [q] ∧ 0 ∈ linesIn q.off q.len ∧ (h.port 0).filter = [0] ∧ (h.port 0).snoop = [] ∧ q.src ≠ .cxl ∧ q.placed = none)
    ∧ ((windowed { snoop := [0], filter := [0] }).port 0).snoop = [0] ∧ ((windowed { snoop := [0] }).port 0).reqs = []
    ∧ (List.range 58).any (fun e => decide (beside e = .cxl)) = true := by decide +kernel
theorem witness_HostMemoryAccess :
    let s := windowed {} fun c => { c with direct := [⟨.dma 50, .cxl, false, 0, 1, .dread 3 0 64⟩] }
    beside 50 = .cxl ∧ s.cxl.direct.length = 1 ∧ s.cxl.link = true ∧ ¬ 0 + 64 ≤ s.lead.winSize.toNat * 2 ^ 20
    ∧ 0 + 64 ≤ ({ s.lead with winSize := 1 } : Lead).winSize.toNat * 2 ^ 20 ∧ (windowed {}).cxl.direct = [] := by decide +kernel

/-- The link up, pair 3 and the event ring as given. -/
def rings (p : Pair) (r : Ring := {}) (l : Lead → Lead := id) : State :=
  { State.reset with cxl := { link := true }, pairs := [(3, p)], events := r, lead := l { State.reset.lead with state := 1 } }

theorem witness_Bar0Writes : (rings {}).cxl.link = true ∧ (rings {}).lead.cls = 0 ∧ 2 % 4 ≠ 0 ∧ (rings {}).winBusy = false
    ∧ (rings {} {} fun l => { l with cls := 2 }).lead.cls ≠ 0 ∧ ((rings {}).pair 3).en = false ∧ ((rings { en := true, log := 4 }).pair 3).en = true
    ∧ 0x110 % 32 = 16 ∧ (0x110 : Word).getLsbD 8 = true ∧ 0x103 % 32 = 3 ∧ 0x111 % 32 = 17
    ∧ ((rings { cq := { en := true } }).pair 3).cq.en = true ∧ BitVec.ofNat 8 (0x10110 / 2 ^ 16) ≠ 0 ∧ (rings {}).lead.state ≠ 0
    ∧ ((rings { en := true, log := 4 }).pair 3).log.toNat = 4 ∧ 2 ^ 4 ≤ 16 ∧ 15 < 2 ^ 4
    ∧ (let r : Ring := { en := true, log := 4, used := 16 }
       (rings {} r).events.size = 16 ∧ 0 < 16 ∧ 16 ≤ (rings {} r).events.used ∧ 0 = ((rings {} r).events.head + 16) % 16)
    ∧ ((rings { cq := { en := true }, en := true }).ring 3).en = true := by decide +kernel
theorem witness_HostWindowIsBusy :
    { rings {} with cores := [(0, { f := { str := [(1, { st := 1, cm := mkCap 6 0xFFF 0 64 0 })] } })] }.winBusy = true
    ∧ BitVec.ofNat 28 0 = (rings {}).lead.winSize ∧ BitVec.ofNat 28 1 ≠ (rings {}).lead.winSize := by decide +kernel

/-! ## Premises: rings and host commands -/

/-- A submission entry, zero but for the fields given as byte offset, length and value. -/
def spell (fs : List (Nat × Nat × Nat)) : List Byte :=
  fs.foldl (fun bs f => bs.take f.1 ++ bytesOfNat f.2.1 f.2.2 ++ bs.drop (f.1 + f.2.1)) (List.replicate 64 0)
/-- A command of pair 3. -/
def cmd (fs : List (Nat × Nat × Nat)) : Cmd := ⟨3, spell fs⟩
/-- The Glade personality with every die up, the link up and a host window of 1 MiB, pair 3 holding that command. -/
def given (c : Cmd) (l : Lead → Lead := id) : State :=
  { State.reset with
    dies := (List.range 25).map fun d => (d, { phase := 2 })
    cxl := { link := true }, pairs := [(3, { admitted := [c], inflight := 1, cq := { en := true } })]
    lead := l { State.reset.lead with state := 2, fwValid := true, winSize := 1 } }

/-- Pair 3 with one entry to fetch. -/
def fetching (e : List Byte) : State :=
  { given (cmd []) with
    pairs := [(3, { en := true, log := 4, tail := 1, cq := { en := true } })]
    hostMem := writeBytes [] 0 e }
theorem witness_SubmissionFetch :
    let bad := fetching (spell [(0, 1, 0x11)])
    bad.nextPair = some 3 ∧ (bad.pair 3).head < 2 ^ 4 ∧ (bad.pair 3).tail = ((bad.pair 3).head + 1) % 2 ^ 4 ∧ (bad.pair 3).fetched = []
    ∧ (bad.pair 3).inflight = 0 ∧ bad.checkCmd ⟨3, readBytes bad.hostMem ((bad.pair 3).base.toNat) 64⟩ = some (3, 0)
    ∧ (bad.pair 3).owed + 4 ≤ 256 ∧ 4 ≤ (bad.pair 3).log.toNat ∧ (fetching (spell [])).checkCmd (cmd []) = none
    ∧ (let p : Pair := { en := true, log := 4, head := 14, tail := 3, inflight := 1, cq := { en := true } }
       let s := { fetching (spell []) with pairs := [(3, p)], hostMem := writeBytes [] (64 * 14 + 1) [1] }
       s.nextPair = some 3 ∧ p.fetched = [] ∧ p.tail = (p.head + 5) % 2 ^ 4 ∧ p.owed + 4 ≤ 256
        ∧ (⟨3, readBytes s.hostMem (64 * 14) 64⟩ : Cmd).fence = true) := by decide +kernel
/-- Pair 3's completion ring of 16 entries with one record of n entries to write. -/
def recording (tail used n : Nat) (more : List Rec := []) : State :=
  rings { cq := { en := true, log := 4, tail := tail, used := used, irqEn := true
                  wait := { type := 1, len := n, body := List.replicate (16 * n - 8) 0 } :: more } }
theorem witness_RecordWrite :
    let w : Rec := { type := 1, len := 2, body := List.replicate 24 0 }
    let r : Ring := { en := true, log := 4 }
    let e := { rings {} r with lead := { (rings {}).lead with backlog := [.record w] } }
    (∀ s ∈ [recording 0 0 2, recording 15 0 2, recording 0 15 2], (((s.pair 3).cq.wait.headD w).len) = 2 ∧ w.body.length = 16 * 2 - 8)
    ∧ 0 + 2 < (recording 0 0 2 |>.ring 3).size ∧ 15 < (recording 15 0 2 |>.ring 3).size ∧ 16 < 15 + 2 ∧ 0 + (16 - 15) + 2 ≤ 16 ∧ 16 < 15 + 2
    ∧ (recording 0 0 17 |>.ring 3).size < 17 ∧ e.lead.backlog = [.record w] ∧ e.lead.lostNow = 0 ∧ e.events.irqEn = false
    ∧ e.events.tail + 2 < e.events.size ∧ e.events.used + 2 ≤ e.events.size
    ∧ ({ e.lead with toPost := [.record w] } : Lead).toPost = [.record w] ∧ e.lead.toPost = [] ∧ e.cxl.link = true
    ∧ (let d := { e with debug := r, lead := { e.lead with lostNow := 1, dbgLost := 2, dbgLog := [w] } }
       d.lead.lostNow ≠ 0 ∧ d.lead.dbgLost ≠ 0 ∧ (∀ k ∈ [64, 65], (d.ring k).en = true ∧ (d.ring k).irqEn = false
         ∧ (d.ring k).tail + 2 < (d.ring k).size ∧ (d.ring k).used + 2 ≤ (d.ring k).size) ∧ d.lead.dbgLog = [w]) := by decide +kernel
/-- A frame record of stream 0 of port 0 that waits for pair 3's ring. -/
theorem witness_FrameRecord : let w : Rec := { type := 3, len := 2, body := List.replicate 24 0 }
    w.body.length = 16 * w.len - 8 ∧ natOfBytes ((w.body.drop 8).take 2) = 0
    ∧ (∀ en ∈ [true, false], let x := ((rings { cq := { en := en, log := 4, wait := [w] } }).pair 3).cq
        x.wait = [w] ∧ x.en = en ∧ x.irqEn = false ∧ x.tail + w.len < x.size ∧ x.used + w.len ≤ x.size) := by decide +kernel

/-- An image of one block: port 0's register 0x14 written with v. -/
def image (v : Nat) : List Byte := bytesOfNat 4 0 ++ bytesOfNat 4 0x10015 ++ bytesOfNat 4 v
/-- That image in host memory at 0. -/
def imaged (c : Cmd) : State := { given c with hostMem := writeBytes [] 0 (image 0x120) }
/-- Stand 5 loaded on core 0 of a grove that is on. -/
def standing (c : Cmd) (run : Bool) : State :=
  { given c with stands := [(5, { loaded := true, pair := 3, run := run, tag := 9 })], groves := [(0, { on := true })] }

theorem witness_HostCommands :
    (given (cmd [])).front 3 (cmd []) [] ∧ (given (cmd [(0, 1, 1)])).front 3 (cmd [(0, 1, 1)]) []
    ∧ (let c := cmd [(0, 1, 2), (16, 4, 12)]
       (imaged c).front 3 c [] ∧ c.opcode = 2 ∧ c.session = 0 ∧ c.n 16 4 = 12 ∧ (imaged c).dieUp (portDie 0) = true
        ∧ (imaged c).cxl.leadFails = false ∧ ({ imaged c with cxl := { link := true, leadFails := true } } : State).front 3 c []
        ∧ readBytes (imaged c).hostMem ((imaged c).lead.winBase.toNat + c.n 8 8) 12 = image 0x120
        ∧ ({ imaged c with dies := [] } : State).dieUp (portDie 0) = false ∧ ({ imaged c with dies := [] } : State).front 3 c [])
    ∧ (let c := cmd [(0, 1, 3), (12, 4, 0x10015)]
       (given c).front 3 c [] ∧ c.n 8 4 = 0 ∧ c.n 12 4 % 4 = 1 ∧ c.n 12 2 = 0x15 ∧ c.n 14 2 = 1)
    ∧ (let c := cmd [(0, 1, 4), (8, 2, 5), (32, 4, 12)]
       let s := { imaged c with groves := [(0, { on := true })] }
       s.front 3 c [] ∧ (s.stand 5).loaded = false ∧ c.n 32 4 = 12 ∧ readBytes s.hostMem (s.lead.winBase.toNat + c.n 24 8) 12 = image 0x120
        ∧ ∀ w ∈ rectCores (rectOf (c.n 12 4) (c.n 16 4)), s.dieUp (dieOf w) = true ∧ s.gstate w = 1) := by
  unfold State.front; decide +kernel
theorem witness_StandCtl : ∀ op ∈ [0, 1, 2, 3], let c := cmd [(0, 1, 5), (8, 2, 5), (10, 1, op)]
    (standing c (decide (op = 2))).front 3 c [] ∧ c.opcode = 5 ∧ c.n 8 2 = 5 ∧ c.n 10 1 = op ∧ ((standing c false).stand 5).loaded = true
    ∧ ((standing c true).stand 5).run = true ∧ ((standing c false).stand 5).run = false ∧ ((standing c false).stand 5).session = 0
    ∧ (∀ g ∈ [false, true], let s := { standing c false with groves := [(0, ({ on := true, gated := g } : Grove))] }
        ∀ w ∈ (s.stand 5).cores, s.dieUp (dieOf w) = true ∧ (s.grove (groveOf w)).on = true ∧ s.gstate w = if g then 2 else 1) := by
  unfold State.front; decide +kernel
/-- A NOP that may no longer run: the module has gone back to the state before Thyme. -/
theorem witness_NopThatMayNotRun : let s := given (cmd []) fun l => { l with state := 0 }
    (s.pair 3).admitted = [cmd []] ∧ (s.modPair 3 fun p => { p with admitted := [] }).ownFail (cmd []) = some (5, 0) := by decide +kernel

/-! ## Premises: DMA -/

/-- A COPY, FILL or COMPARE of 64 bytes from device address 64 to 0. -/
def moving (op : Nat) : Cmd := cmd [(0, 1, op), (if op = 7 then (0, 1, op) else (8, 8, 64)), (24, 8, 64)]
/-- The module with memory trained, engine 0 as given. -/
def engine (y : Engine) (l : Lead → Lead := id) : State :=
  { given (cmd []) l with ports := (List.range 64).map (fun m => (m, ({ train := 2 } : Port))), engines := [(0, y)] }
/-- A full engine. -/
def full : Engine := { xfers := (List.range 64).map fun k => { slot := k, cmd := moving 7 } }

theorem witness_DmaCommands : ∀ op ∈ [6, 7, 8], let c := moving op
    let s := { engine {} with pairs := (given c).pairs }
    let f := { engine {} with pairs := (given c).pairs, engines := [(0, full), (1, full)] }
    c.opcode = op ∧ s.front 3 c [] ∧ s.engineFor c = 0 ∧ (s.engine 0).xfers.length < 64 ∧ s.lead.dmaWait = []
    ∧ f.front 3 c [] ∧ f.engineFor c = 0 ∧ 64 ≤ (f.engine 0).xfers.length := by
  unfold State.front; decide +kernel
theorem witness_DmaTransfers :
    let t := fun (op : Nat) => engine { xfers := [{ slot := 0, cmd := moving op }] }
    (∀ op ∈ [6, 7], (t op).engineUp 0 = true ∧ (t op).mapAddr 0 = .inr (0, 0) ∧ (t op).mapAddr 64 = .inr (0, 64) ∧ beside 0 = .mem 0 ∧ (moving op).src.fixed = false ∧ (moving op).dst.fixed = false
      ∧ (moving op).src.space = 0 ∧ (moving op).dst.space = 0 ∧ (moving op).length = 64)
    ∧ (let w := engine {} fun l => { l with dmaWait := [moving 6] }
       w.lead.dmaWait = [moving 6] ∧ w.engineFor (moving 6) = 0 ∧ (w.engine 0).xfers.length < 64) := by decide +kernel
theorem witness_DmaReplies :
    let p := fun (f : BitVec 4) => (⟨.mem 0, .dma 0, false, 0, 1, .drep 5 f [1, 2]⟩ : Packet)
    let y := fun (op side : Nat) (f : BitVec 4) (as : List (Nat × List Byte)) => ({ xfers := [{ slot := 0, cmd := moving op, reqs := [⟨5, side, 0, 2⟩], bufA := as }]
                                                                                    replies := [p f] } : Engine)
    (∀ f ∈ [0, 4], ((engine (y 6 0 f [])).engine 0).replies = [p f] ∧ (p f).body = .drep 5 f [1, 2])
    ∧ (y 8 1 0 [(0, [1, 2])]).xfers.map (·.wr) = [0] ∧ ([1, 2] : List Byte)[1]? = some 2 ∧ ([1, 3] : List Byte)[1]? = some 3 ∧ (2 : Byte) ≠ 3
    ∧ (List.range 1).all (fun j => decide (([1, 2] : List Byte)[j]? = ([1, 3] : List Byte)[j]?)) = true := by decide +kernel
theorem witness_DmaCompletes :
    let x : Xfer := { slot := 0, cmd := moving 6, wr := 64 }
    let s := engine { xfers := [x] }
    (s.engine 0).xfers = [x] ∧ x.cmd.spads = [] ∧ (s.pair x.cmd.pair).fetched = [] ∧ x.cmd.length ≤ x.wr
    ∧ ({ x with diff := some (3, 1, 2) } : Xfer).diff = some (3, 1, 2) ∧ ({ x with fault := some (4, 32) } : Xfer).fault = some (4, 32) ∧ 32 ≤ x.wr
    ∧ s.engineUp 0 = true
    ∧ (let b := engine { xfers := [{ slot := 0, cmd := moving 6, tracked := true, bufA := [(0, List.replicate 64 0)], marks := [⟨0, 0, true⟩] }] }
       b.engineUp 0 = true ∧ b.stewards (engineName 0).1 = true ∧ (b.engine 0).bufUe ≠ 0xFFFF ∧ (b.engine 0).xfers.map (·.wr) = [0] ∧ (moving 6).dst.fixed = false ∧ 0 < (moving 6).length
        ∧ (match exec (.dmaWriteBeat 0) b with
           | .next u => decide ((u.engine 0).xfers.map (·.fault) = [some (3, 0)] ∧ (u.engine 0).bufUe = 1)
           | _ => false) = true) := by decide +kernel

/-! ## Premises: Ethernet -/

/-- A session numbered 1. -/
def opened : Session := { id := 1, keys := List.replicate 160 0, root := [] }
/-- Port 0 as given, up, with session 1 open. -/
def wired (c : Cmd) (x : Eth) : State :=
  { given c fun l => { l with sessions := [opened] } with
    ports := (List.range 64).map (fun m => (m, ({ train := 2 } : Port))), eths := [(0, { x with rate := 1, link := true })]
    stands := [(5, { loaded := true })] }
/-- An open flow 2 of session 1 with a ring of 16 entries. -/
def flow2 : Flow := { open_ := true, session := 1, ringLog := 4, winUnits := 1 }

theorem witness_EthernetCommands :
    (let c := cmd [(0, 1, 0x0B), (10, 1, 1), (11, 1, 10)]
     (wired c {}).front 3 c [] ∧ c.n 8 1 / 4 % 8 = 0 ∧ c.n 8 1 % 4 = 0)
    ∧ (let c := cmd [(0, 1, 0x0B), (4, 2, 1), (8, 1, 1), (9, 1, 2), (12, 2, 4000), (14, 1, 4), (32, 4, 1)]
       (wired c {}).front 3 c [] ∧ c.n 8 1 % 4 = 1)
    ∧ (let c := cmd [(0, 1, 0x0B), (8, 1, 2)]
       (wired c {}).front 3 c [] ∧ c.n 8 1 % 4 = 2 ∧ (wired c {}).cxl.link = true ∧ (wired c {}).cxl.cut = false)
    ∧ (let c := cmd [(0, 1, 0x0C), (9, 1, 2)]
       (wired c {}).front 3 c [] ∧ (sget {} ((wired c {}).eth 0).flows 2 : Flow).open_ = false
        ∧ (wired c { flows := [(2, flow2)] }).front 3 c [] ∧ (sget {} ((wired c { flows := [(2, flow2)] }).eth 0).flows 2 : Flow).unacked = [])
    ∧ (let c := cmd [(0, 1, 0x09), (9, 1, 2), (10, 1, 1), (11, 1, 2), (13, 1, 3), (14, 2, 5), (24, 4, 1), (28, 4, 64)]
       (wired c { flows := [(2, flow2)] }).front 3 c [])
    ∧ (let c := cmd [(0, 1, 0x0A)]
       let s := wired c { flows := [(2, flow2)], streams := [(0, { open_ := true, flow := 2 })] }
       let v := wired c { flows := [(2, flow2)], streams := [(0, { open_ := true, flow := 2, frames := [{ no := 7, slot := 0, bytes := 64, started := true }] })] }
       s.front 3 c [] ∧ (sget {} (s.eth 0).streams 0 : FStream).frames = [] ∧ (sget {} (s.eth 0).streams 0 : FStream).closing = [] ∧ v.front 3 c []
        ∧ (sget {} (v.eth 0).streams 0 : FStream).frames.map (·.started) = [true])
    ∧ (wired (cmd []) {}).ethUp 0 = true ∧ (wired (cmd []) {}).cxl.leadFails = false := by
  unfold State.front; decide +kernel

/-- A packet of flow 2 with its number and the last received. -/
def packet (type no ack : Nat) : List Byte := [1, BitVec.ofNat 8 type] ++ bytesOfNat 2 2 ++ bytesOfNat 4 16 ++ bytesOfNat 8 no ++ bytesOfNat 8 ack ++ List.replicate 24 0
/-- A receive-ring record for core 0. -/
def record (sig : Option Word) : RxRec :=
  { id := 4, entries := 1, core := 0, ep := 1, srcEp := 2, data := List.replicate 8 0, sig := sig, pktNo := 1, item := 0, after := 0 }
/-- A frame of 64 bytes, all in. -/
def frame (started : Bool) : Frame := { no := 7, slot := 0, bytes := 64, started := started }

theorem witness_GladePackets :
    let s := wired (cmd []) { flows := [(2, flow2)] }
    s.ethUp 0 = true ∧ (sget {} (s.eth 0).flows 2 : Flow) = flow2 ∧ s.session flow2.session = some opened ∧ (s.eth 0).writes = []
    ∧ (s.eth 0).gaps = [] ∧ (s.eth 0).msgs = [] ∧ (s.eth 0).boundTo 2 = none ∧ flow2.unacked = [] ∧ flow2.ring = []
    ∧ flow2.udp = 0 ∧ flow2.ipv4 = false ∧ flow2.udp ≠ 1 ∧ (packet 0 1 0).length = 48
    ∧ (∀ type ∈ [0, 1, 2], ∀ no ∈ [1, 2], natOfBytes (((packet type no 0).drop 2).take 2) = 2
        ∧ natOfBytes (((packet type no 0).drop 1).take 1) = type ∧ natOfBytes (((packet type no 0).drop 8).take 8) = no)
    ∧ flow2.rxNo + 1 = 1 ∧ coreOk 0 = true ∧ flow2.tail + (8 + 64 + 15) / 16 < 2 ^ flow2.ringLog := by decide +kernel
theorem witness_GladeSending :
    let s := fun (f : Flow) => wired (cmd []) { flows := [(2, f)] }
    let m : MRead := { req := 1, off := 0, left := 8, after := 0, part := 8, got := [(0, List.replicate 8 0)], pktNo := 1, item := 0 }
    (s { flow2 with items := [List.replicate 16 0] }).ethUp 0 = true ∧ (List.replicate 16 (0 : Byte)).length ≤ 8960 ∧ flow2.unacked.length < 256
    ∧ (∀ r ∈ [record none, record (some 1)], (sget {} ((s { flow2 with ring := [r] }).eth 0).flows 2 : Flow).ring = [r] ∧ r.done = false ∧ r.sent = false
        ∧ r.seq = none ∧ r.key ∉ ((s { flow2 with ring := [r] }).eth 0).recov)
    ∧ (sget {} ((s { flow2 with reads := [m] }).eth 0).flows 2 : Flow).reads = [m] ∧ m.left = m.part ∧ m.wait = []
    ∧ (sget {} ((s { flow2 with unacked := [⟨1, [], []⟩] }).eth 0).flows 2 : Flow).unacked = [] ++ [⟨1, [], []⟩] := by decide +kernel
theorem witness_GladeAcksAndFrames :
    let s := fun (seg : Option (Nat × Nat)) (f : BitVec 4) => wired (cmd []) { flows := [(2, flow2)], acks := [(9, f)], writes := [⟨9, 2, 1, 0, seg⟩] }
    let y : FStream := { open_ := true, flow := 2, depth := 1, pipe := 1, cq := 3, size := 64, units := 1 }
    let p : Packet := ⟨.core 0, .eth 0, false, 0, 1, .esig 2 1 16 0 0 1⟩
    let v := fun (started : Bool) => wired (cmd []) { flows := [(2, flow2)], streams := [(0, { y with frames := [frame started] })], msgs := [p] }
    (let f : Flow := { flow2 with rxNo := 1, closeNo := 1 }
     (f.open_ && decide (1 ≠ 0) && decide (1 - 1 < f.rxNo)) = true
      ∧ (!(f.open_ && decide (2 ≠ 0) && decide (2 - 1 < f.rxNo)) && decide (f.closeNo ≠ 0) && decide (f.closeNo ≤ f.rxNo)) = true)
    ∧ (∀ k ∈ [none, some (0, 7)], ∀ f ∈ [0, 4], ((s k f).eth 0).acks = [(9, f)] ∧ ((s k f).eth 0).writes = [⟨9, 2, 1, 0, k⟩])
    ∧ ((v false).eth 0).boundTo 2 = some 0 ∧ (sget {} ((v false).eth 0).streams 0 : FStream).frames = [frame false]
    ∧ (frame false).bytes = y.size ∧ 0 < y.pipe ∧ flow2.tail + 2 < 2 ^ flow2.ringLog
    ∧ ((v true).eth 0).msgs = [p] ∧ ((v true).eth 0).gaps = [] ∧ ((v true).pair y.cq).cq.en = true ∧ y.mask = 0 ∧ y.ending = false
    ∧ (sget {} ((v true).eth 0).streams 0 : FStream).frames = [frame true] ∧ (16 : BitVec 5).toNat = 16 + 0 := by decide +kernel

/-! ## Premises: power and service -/

theorem witness_Heartbeats : let s := given (cmd [])
    let b := { s with dies := sset {} s.dies 2 { phase := 2, beat := true } }
    s.stewards 0 = true ∧ s.lead.fwValid = true ∧ s.lead.leadAlt = false ∧ (s.die 2).updating = false ∧ s.stewards 12 = true
    ∧ (b.die 2).beat = true ∧ b.stewards 12 = true ∧ (s.die 2).beat = false ∧ s.leadCommands = [cmd []] := by decide +kernel
theorem witness_NothingOnlyFetched : ∀ q, ((given (cmd [])).pair q).fetched = [] :=
  sget_all (P := fun p : Pair => p.fetched = []) {} (given (cmd [])).pairs rfl (by decide +kernel)
theorem witness_PowerWindow : let s := given (cmd [])
    let t := limitsOf s.declared.toNat
    s.stewards s.leadDie = true ∧ t.envelope < 7000000 ∧ 10 * 5000000 < 9 * t.envelope ∧ s.lead.holdoff = 0 ∧ 2 ≤ s.lead.state
    ∧ (s.die 0).point ≠ 0 ∧ s.mayStep 0 = true ∧ (s.die 0).held = false ∧ (s.die 0).ramp = none ∧ (∀ d, d < 25 → (s.die d).point = (s.die 0).point)
    ∧ ({ s.lead with holdoff := 4 } : Lead).holdoff ≠ 0 ∧ ({ s.die 0 with ramp := some 2 } : Die).ramp = some 2
    ∧ 11 * (limitsOf s.lead.clsNow.toNat).envelope < 400 * 200000 ∧ ¬ 11 * (limitsOf s.lead.clsNow.toNat).envelope < 400 * 100000 := by decide +kernel
theorem witness_NoCoreAsksForDvfs : ∀ w, ((given (cmd [])).core w).f.dvfsEn = false := fun _ => rfl
/-- Readings of 25 °C everywhere but at one sensor, in quarter degrees. -/
def sample (k v : Nat) : List Nat := (List.range 32).map fun i => if i = k then v else 100
theorem witness_Samples : let s := standing (cmd []) false
    let t := limitsOf s.declared.toNat
    let at_ := fun (k v i : Nat) => tempOf (reading ((sample k v).getD i 0))
    s.dieUp 0 = true ∧ dieStacks 0 = [0] ∧ dieBlock 0 = none ∧ (dieBlock 2).isSome = true
    ∧ t.trip ≤ at_ 0 440 0 ∧ t.stackTrip ≤ at_ 30 400 30 ∧ t.portTrip ≤ at_ (30 + (dieStacks 2).length) 440 (30 + (dieStacks 2).length)
    ∧ t.deep ≤ at_ 0 400 0 ∧ at_ 0 400 0 < t.trip ∧ t.light ≤ at_ 0 380 0 ∧ at_ 0 380 0 < t.deep ∧ at_ 0 340 0 < t.light ∧ t.step ≤ at_ 0 340 0
    ∧ (s.grove 0).state = 1 ∧ s.stewards 0 = true ∧ (∀ k, k < 30 → at_ 0 100 k ≤ t.step - 20) ∧ t.throttle < at_ 30 341 30 ∧ at_ 30 341 30 < t.stackTrip
    ∧ at_ 0 100 30 ≤ t.throttle - 20 := by decide +kernel

/-- Grove 0 fenced, for GROVE_SERVICE with an OP. -/
def fenced (op : Nat) (g : Grove := {}) : State :=
  { given (cmd [(0, 1, 0x0D), (12, 1, op)]) with groves := [(0, { g with on := true, fence := decide (op = 1 ∨ op = 2), tested := decide (op = 2) })] }
theorem witness_GroveService : ∀ op ∈ [0, 1, 2, 3], let c := cmd [(0, 1, 0x0D), (12, 1, op)]
    (fenced op).front 3 c [] ∧ c.opcode = 0x0D ∧ c.n 8 4 = 0 ∧ c.n 12 1 % 8 = op ∧ ((fenced 0).grove 0).fence = false ∧ ((fenced 1).grove 0).state = 5
    ∧ ((fenced 3).grove 0).state = 1 ∧ (fenced op).lead.tests = [] := by
  unfold State.front; decide +kernel
theorem witness_NoDeliveryWaits : ∀ w ∈ groveCores 0, ((fenced 0).core w).t.inbox = [] ∧ ((fenced 0).core w).t.held = [] := fun _ _ => ⟨rfl, rfl⟩
theorem witness_GroveTests : let c := cmd [(0, 1, 0x0D), (12, 1, 1)]
    let s := { fenced 1 with lead := { (fenced 1).lead with tests := [{ grove := 0, cmd := some c }] } }
    s.lead.tests = [{ grove := 0, cmd := some c }] ∧ (s.pair c.pair).fetched = [] ∧ c.wantsBlock = false ∧ s.dieUp (dieOfGrove 0) = true
    ∧ (s.grove 0).retired = [] ∧ (s.grove 0).codes = [] := by decide +kernel
/-- The power-up sequence at grove n, with grove 0 as given. -/
def stepping (n : Nat) (g : Grove) (l : Lead → Lead := id) : State :=
  { given (cmd []) fun x => l { x with closed := true, gstep := n } with groves := [(0, g)] }
theorem witness_PowerSteps : let w := stepping 750 { deep := true, wantStep := true }
    let r := stepping 750 { fence := true, on := true } fun l => { l with returns := [(0, some (cmd []), 0)] }
    (stepping 0 {}).lead.gstep = 0 ∧ (stepping 0 {}).lead.closed = true ∧ (stepping 0 {}).stewards (stepping 0 {}).leadDie = true
    ∧ ((stepping 0 {}).grove 0).unavail = false ∧ 750 ≤ w.lead.gstep ∧ w.nextStep = some 0 ∧ (w.grove 0).deep = true
    ∧ r.nextStep = some 0 ∧ (r.grove 0).deep = false ∧ (r.pair (cmd []).pair).fetched = [] := by decide +kernel

/-- A guard of a die whose firmware is being updated. -/
theorem witness_GuardEndsAnUpdate : let j : FwJob := { cmd := cmd [], load := false, image := [], left := [0] }
    let s := { standing (cmd []) false with lead := { (standing (cmd []) false).lead with fw := some j } }
    let u := { s with dies := sset {} s.dies 0 { phase := 2, updating := true } }
    u.dieUp 0 = true ∧ (u.grove 0).state = 1 ∧ (u.die 0).updating = true ∧ u.lead.fw = some j ∧ j.load = false ∧ j.left.head? = some 0 := by
  decide +kernel
/-- Every core of grove 0 has issued since the last probe, but core 0, which has failed three. -/
def silent : State :=
  { standing (cmd []) false with
    stands := []
    cores := (groveCores 0).map fun w => (w, { t := if w = 0 then { probeFail := 3 } else { alive := 1 } }) }
theorem witness_LivenessProbe : silent.stewards 0 = true ∧ silent.lead.tests = [] ∧ silent.loadedStands = [] ∧ (silent.core 0).t.probeFail = 3
    ∧ coreOk 0 = true ∧ dieOf 0 = 0 ∧ silent.gstate 0 = 1 ∧ groveOf 0 = 0 ∧ (silent.core 0).t.alive = (silent.core 0).t.aliveSeen := by decide +kernel
/-- The cores of grove 0 lie in its 16 rows and 16 columns. -/
theorem groveOf_zero (v : Nat) (h : groveOf v = 0) (hk : coreOk v = true) : v ∈ groveCores 0 := by
  have hx : coreX v < 400 ∧ coreY v < 480 := by simpa [coreOk] using hk
  have hg : coreX v < 16 ∧ coreY v < 16 := by
    simp only [groveOf, dieOf, localY, localX] at h
    omega
  have key : ∀ y < 16, ∀ x < 16, wordXY x y ∈ groveCores 0 := by decide +kernel
  have hv : v = wordXY (coreX v) (coreY v) := by
    simp only [wordXY, coreX, coreY, coreOk] at *
    omega
  rw [hv]; exact key _ hg.2 _ hg.1
theorem witness_OthersIssue : ∀ v, coreOk v = true → silent.gstate v = 1 → v ≠ 0 → (silent.core v).t.alive ≠ (silent.core v).t.aliveSeen := by
  intro v hk hs hv
  have hg : groveOf v = 0 := by
    by_cases h : groveOf v = 0
    · exact h
    · exact absurd hs (by simp [State.gstate, State.grove, silent, standing, sget_cons, Ne.symm h]; decide)
  have all : ∀ w ∈ groveCores 0, w ≠ 0 → (silent.core w).t.alive ≠ (silent.core w).t.aliveSeen := by decide +kernel
  exact all v (groveOf_zero v hg hk) hv
theorem witness_DieLoss : let s := given (cmd [])
    s.dieUp 0 = true ∧ (s.die 0).updating = false ∧ (s.die 0).stewLost = false ∧ 0 ≠ s.leadDie ∧ (s.die 0).beat = false
    ∧ ({ s.die 0 with beat := true } : Die).beat = true ∧ s.dieUp 2 = true := by decide +kernel

/-! ## Premises: sessions, start-up and the machine -/

/-- A message of the mailbox. -/
def message (type session len : Nat) : List Byte :=
  [BitVec.ofNat 8 type, 1] ++ bytesOfNat 2 session ++ bytesOfNat 4 len ++ List.replicate (len - 8) 0
/-- The module with session 1 open, the lead's key confirmed, and memory trained. -/
def sealed (c : Cmd) (l : Lead → Lead := id) : State :=
  { given c fun x => l { x with sessions := [opened], winSize := 16 } with
    ports := (List.range 64).map (fun m => (m, ({ train := 2, mergeEn := false } : Port)))
    dies := (List.range 25).map fun d => (d, { phase := 2, pubKey := List.replicate 97 1 }) }
theorem witness_Messages : let s := sealed (cmd [])
    let n := given (cmd [])
    s.cxl.link = true ∧ s.cxl.leadFails = false ∧ s.stewards s.leadDie = true ∧ (s.die s.leadDie).pubKey ≠ [] ∧ ((s.die 0).pubKey).length = 97 ∧ (n.die n.leadDie).pubKey = []
    ∧ (∀ p ∈ [(1, 8), (2, 56), (3, 153), (4, 24)], (message p.1 1 p.2).length = p.2 ∧ natOfBytes (((message p.1 1 p.2).drop 0).take 1) = p.1
        ∧ natOfBytes (((message p.1 1 p.2).drop 1).take 1) = 1 ∧ natOfBytes (((message p.1 1 p.2).drop 4).take 4) = p.2
        ∧ natOfBytes (((message p.1 1 p.2).drop 2).take 2) = 1)
    ∧ ((message 1 1 8).set 1 2)[1]? = some 2 ∧ s.lead.fwValid = true ∧ s.lead.sessions.length < 16 ∧ s.lead.nextSession ≤ 0xFFFF
    ∧ 16 ≤ ({ s.lead with sessions := List.replicate 16 opened } : Lead).sessions.length ∧ n.session 1 = none ∧ s.session 1 = some opened
    ∧ opened.closing = false ∧ s.loadedStands = [] ∧ s.cores = [] ∧ s.lead.regions = [] ∧ (∀ d ∈ s.leadCommands, d.session ≠ 1)
    ∧ (message 5 1 40).length = 40 ∧ ({ s.cxl with ideNext := some [] } : Cxl).ideNext = some [] := by decide +kernel
theorem witness_NoFlowOfASession : ∀ e, ((sealed (cmd [])).eth e).flows.all (fun p => decide (p.2.session ≠ 1)) = true := fun _ => rfl
theorem witness_Sessions :
    let r : Region := ⟨0, 4096, 1⟩
    let c := fun (op : Nat) => cmd ([(0, 1, 0x10), (8, 1, op)] ++ if op = 0 then [(24, 8, 51200)] else [(4, 2, 1)] ++ if op = 2 then [(24, 8, 96)] else
      if op = 1 then [(24, 8, 1)] else if op = 3 then [(24, 8, 64)] else [])
    let s := fun (op : Nat) => sealed (c op) fun l => { l with regions := if op = 3 ∨ op = 5 then [r] else [] }
    (∀ op ∈ [0, 1, 2, 3, 4, 5], (s op).front 3 (c op) [] ∧ (c op).opcode = 0x10 ∧ (c op).n 8 1 = op ∧ (s op).session 1 = some opened)
    ∧ (c 2).n 24 8 = 96 ∧ (s 1).mapAddr 0 = .inr (0, 0) ∧ (∀ d ∈ (s 4).leadCommands, d.session = (c 4).session → d = c 4)
    ∧ (s 5).lead.regions = [r] ∧ r.base = (c 5).n 16 8 ∧ r.session = (c 5).session ∧ 4096 * 0 + 4096 ≤ r.len := by
  unfold State.front; decide +kernel
theorem witness_ExportReads : let s := sealed (cmd []) fun l => { l with regions := [⟨0, 4096, 1⟩] }
    (s.devRead 0 64 1).1 = 0 ∧ (s.devRead 0 64 1).2.1 = List.replicate 64 0 ∧ s.heldBy 0 64 = [] := by decide +kernel
theorem witness_ImportBlob :
    let h := bytesOfNat 4 0x42505147 ++ bytesOfNat 2 1 ++ bytesOfNat 2 1 ++ bytesOfNat 8 1 ++ bytesOfNat 8 0 ++ bytesOfNat 8 16 ++ List.replicate 64 0
    let s := { sealed (cmd []) with hostMem := writeBytes [] 0 h }
    (readBytes s.hostMem s.lead.winBase.toNat 96).take 32 = h.take 32 ∧ opened.id = 1 := by decide +kernel

theorem witness_Supplies : State.reset.input.armed = true ∧ State.reset.input.run = false ∧ ({ run := true } : Input).run = true
    ∧ ({ armed := false } : Input).armed = false ∧ ({ rails := true } : Input).rails = true ∧ (State.reset.die 0).phase = 0
    ∧ 62000 < 63000 ∧ State.reset.cxl.link = false := by decide +kernel
/-- The supplies on and the dies at phases p. -/
def starting (p : Nat → BitVec 2) (l : Lead → Lead := id) : State :=
  { State.reset with input := { run := true, rails := true }, dies := (List.range 25).map (fun d => (d, { phase := p d, coord := some (0, 0) })), lead := l State.reset.lead }
theorem witness_Trunks : let a := starting fun d => if d = 0 then 1 else if d = 1 then 0 else 2
    let b := starting fun d => if d = 0 then 1 else 2
    (a.die 0).coord = some (0, 0) ∧ 4 < (5 : BitVec 3).toNat
    ∧ (a.die 0).phase = 1 ∧ (a.die 1).phase ≠ 2 ∧ (b.die 0).phase = 1 ∧ (∀ d, d < 25 → d ≠ 0 → (b.die d).phase = 2)
    ∧ (a.die 2).phase = 2 ∧ a.lead.closed = false := by decide +kernel
theorem witness_StacksAndReports : let s := starting (fun _ => 2) fun l => { l with closed := true, gstep := 750, fwValid := true }
    let u := { s with cxl := { link := true }, ports := (List.range 64).map fun m => (m, ({ train := 2 } : Port)) }
    s.dieUp (portDie 0) = true ∧ (s.port 0).train = 0 ∧ ({ s.port 0 with train := 1 } : Port).train = 1 ∧ s.dieUp 2 = true ∧ s.input.perst = false
    ∧ u.lead.state = 0 ∧ (∀ m, m < 64 → s.dieUp (portDie m) = true → 2 ≤ (u.port m).train) ∧ 750 ≤ s.lead.gstep
    ∧ ({ s.lead with state := 1 } : Lead).state = 1 ∧ s.lead.selfTest = false ∧ ({ s.lead with selfTest := true } : Lead).selfTest = true
    ∧ (s.grove 3).unavail = false ∧ ({ s.grove 3 with selfTest := true } : Grove).selfTest = true ∧ (s.die 0).queue = [] := by decide +kernel
theorem witness_Firmware :
    let a := cmd [(0, 1, 0x0E), (20, 1, 1), (21, 1, 3)]
    let b := cmd [(0, 1, 0x0E), (16, 4, 256)]
    let u := cmd [(0, 1, 0x0F), (16, 4, 256), (20, 4, 1)]
    let j : FwJob := { cmd := b, load := true, image := List.replicate 256 0, left := [0] }
    (given a).front 3 a [] ∧ a.n 20 1 = 1 ∧ (given b fun l => { l with fwValid := false, state := 1 }).front 3 b [] ∧ b.n 20 1 = 0
    ∧ (given u).front 3 u [] ∧ u.n 20 4 = 2 ^ 0 ∧ (given u).cxl.link = true ∧ (given u).cxl.cut = false ∧ (given u).dieUp 0 = true
    ∧ (given b fun l => { l with fw := some j }).lead.fw = some j ∧ j.dropped = false ∧ (((given b).pair j.cmd.pair).fetched) = []
    ∧ j.failed = [] ∧ ({ j with load := false } : FwJob).done = [] := by
  unfold State.front; decide +kernel
theorem witness_BoardTest : let s := { State.reset with input := { aux := true, run := true }, bt := { i3c := some 8 } }
    s.input.aux = true ∧ s.bt.i3c.isSome = true ∧ s.input.run = true ∧ State.reset.input.aux = false ∧ ((sealed (cmd [])).die 0).pubKey.length = 97
    ∧ ({ aux := true } : Input).run = false := by decide +kernel
theorem witness_StepIdles : State.reset.pending = [] := rfl
theorem witness_DecodeOfEncode : (Op.alu .add 1 2 3 true).wf = true := by decide
theorem witness_EveryStepKeepsTheMemoryTables : let s := { given (cmd []) with pending := [.nop 3], hostMem := [(4, 1)] }
    s.tablesOk ∧ ∃ t, step s = .next t :=
  ⟨⟨by decide, by decide, fun _ => rfl⟩, _, rfl⟩

end Sys2Proof.Tests
end

section
/-! The reset state (R5, R426, R476, R505): its tables of parts list nothing, so each part is read at its initial value. -/
namespace Sys2Proof.Proofs
open Sys2Proof Sys2Proof.Machine

/-! ## The parts of the module at reset -/

@[simp] theorem core_reset (w : Nat) : State.reset.core w = {} := sget_nil _ w
@[simp] theorem die_reset (d : Nat) : State.reset.die d = {} := sget_nil _ d
@[simp] theorem grove_reset (g : Nat) : State.reset.grove g = {} := sget_nil _ g
@[simp] theorem eth_reset (e : Nat) : State.reset.eth e = {} := sget_nil _ e
@[simp] theorem pair_reset (q : Nat) : State.reset.pair q = {} := sget_nil _ q
@[simp] theorem ring_debug (s : State) : s.ring 65 = s.debug := rfl

/-! ## What the initial value of a part shows -/

@[simp] theorem enabled_init (t : Nat) : ({} : Core).enabled t = false := BitVec.getLsbD_zero
/-- No code of a grove is listed, so each row has code 16: each logical position is its own physical one (R15). -/
@[simp] theorem code_init (r : Nat) : ({} : Grove).code r = 16 := sget_nil 16 r
@[simp] theorem state_init : ({} : Grove).state = 0 := rfl
/-- A table that lists nothing is in its canonical form. -/
@[simp] theorem swf_nil {α : Type} [DecidableEq α] (d : α) : swf d [] = true := rfl

/-! ## Each kind of part at reset, in the terms of the statement -/

/-- No trunk is powered, so no die is up. -/
theorem dieDown_reset (d : Nat) : State.reset.dieUp d = false ∧ (State.reset.die d).point = 3 := by
  have hphase : (State.reset.die d).phase = 0 := by rw [die_reset]
  exact ⟨by simp only [State.dieUp, hphase]; rfl, by rw [die_reset]⟩

theorem groveOff_reset (g : Nat) : (State.reset.grove g).state = 0 ∧ ∀ r, (State.reset.grove g).code r = 16 := by
  rw [grove_reset]
  exact ⟨state_init, code_init⟩

theorem pairDisabled_reset (q : Nat) : (State.reset.pair q).en = false ∧ (State.reset.pair q).cq.en = false := by
  rw [pair_reset]
  exact ⟨rfl, rfl⟩

theorem ethDown_reset (e : Nat) : (State.reset.eth e).rate = 0 ∧ (State.reset.eth e).link = false := by
  rw [eth_reset]
  exact ⟨rfl, rfl⟩

theorem coreIdle_reset (w t : Nat) :
    (State.reset.core w).enabled t = false ∧ (State.reset.core w).f.exc.level = 0 ∧ (State.reset.core w).f.spad.mem = [] := by
  rw [core_reset]
  exact ⟨enabled_init t, rfl, rfl⟩

/-! ## The statement -/

/-- The module's own fields are at their initial values; the parts are off by the lemma of their kind. -/
theorem resetLeavesTheModuleOff : ResetLeavesTheModuleOff := by
  unfold ResetLeavesTheModuleOff
  refine ⟨rfl, rfl, rfl, rfl, rfl, rfl, rfl, rfl, rfl, rfl, rfl, rfl, rfl, rfl, rfl, rfl, ?debugRing,
    dieDown_reset, groveOff_reset, pairDisabled_reset, ethDown_reset, coreIdle_reset⟩
  case debugRing => rw [ring_debug]; rfl

theorem resetMemoryTablesAreCanonical : ResetMemoryTablesAreCanonical := by
  have hspad (w : Nat) : swf 0 (State.reset.core w).f.spad.mem = true := by
    obtain ⟨_, _, hempty⟩ := coreIdle_reset w 0
    rw [hempty, swf_nil]
  exact ⟨swf_nil 0, swf_nil 0, hspad⟩

/-- Settles O59: each part of the module is off at reset, and the memories list no byte. -/
theorem resetLeavesTheModuleOffAndItsTablesCanonical : Obligations.ResetLeavesTheModuleOffAndItsTablesCanonical :=
  ⟨resetLeavesTheModuleOff, resetMemoryTablesAreCanonical⟩

end Sys2Proof.Proofs
end
